-- ==== Sys2Proof/Word.lean ====
section
/-! DEFINITION. The word types of the block (`00_scope.md` R8): every value is unsigned, there is
no signed quantity. -/

namespace Sys2Proof

/-- `u8`: one byte of table memory or of a payload. -/
abbrev Byte := BitVec 8

/-- `u32`: a word of a buffer image, an identifier, a unified buffer index. -/
abbrev Word32 := BitVec 32

/-- `u64`: an address, a descriptor, an attribute value. -/
abbrev Word64 := BitVec 64

/-- A bit string, the most significant bit first: the form of a request and of a response
(`30_encoding.md` R81, R82). -/
abbrev Bits := List Bool

end Sys2Proof
end

