-- ==== Sys2Proof/Config.lean ====
section
/-! DEFINITION. The configuration record `CFG` (`00_scope.md` R6), the launch values of its fields,
and the free values (values the spec leaves open after an operation that goes on).

Fields that R6 marks *source* and whose number the source fixes (`VA_BITS`, `STRIDE`, `ENTRIES[1]`,
`ENTRIES[2]`, `ATTR_FAULT`, `MB_BASE`, and `RXFIFO_BASE = MB_BASE + N_MB`), and `REGION_W`, which R28 and
R96 use at its one value 64 (D6), are definitions of `Machine/Operands.lean`; every other field of R6 is a
field here (log 24). -/

namespace Sys2Proof

/-- A table level that a stride and a tag exist for (`00_scope.md` R6). -/
inductive Level where
  | l1
  | l2
  | l3
deriving DecidableEq, Repr

/-- One value for each of the three table levels. -/
structure PerLevel (α : Type) where
  l1 : α
  l2 : α
  l3 : α
deriving DecidableEq, Repr

/-- The value a `PerLevel` record holds for a level. -/
def PerLevel.forLevel {α : Type} (p : PerLevel α) : Level → α
  | .l1 => p.l1
  | .l2 => p.l2
  | .l3 => p.l3

/-- The three hardware resource classes of the CAN buffer window (`43_can_index.md` R181). -/
inductive BufferClass where
  | mb
  | rxFifo
  | cFifo
deriving DecidableEq, Repr

/-- One value for each buffer class. -/
structure PerClass (α : Type) where
  mb : α
  rxFifo : α
  cFifo : α
deriving DecidableEq, Repr

/-- The value a `PerClass` record holds for a class. -/
def PerClass.forClass {α : Type} (p : PerClass α) : BufferClass → α
  | .mb => p.mb
  | .rxFifo => p.rxFifo
  | .cFifo => p.cFifo

/-- A configured level-2 segment `SEG[j]`: its base virtual address and its table's address. -/
structure Segment where
  baseVa : Word64
  tablePtr : Word64
deriving DecidableEq, Repr

/-- A range of bytes the launch memory map backs (`93_implementation_defined.md` U4). -/
structure MemRange where
  base : Nat
  size : Nat
deriving DecidableEq, Repr

/-- `DLC_ROUND`: the rounding of a byte length outside the DLC table (`42_can_dlc.md` R162). -/
inductive DlcRound where
  | up
  | down
deriving DecidableEq, Repr

/-- `CFG` (`00_scope.md` R6). It is fixed for the life of the system (`70_reset_and_hazards.md`
R275): it stands in the state, every operation takes it from there and none writes it. -/
structure Cfg where
  /-- `MAX_LEVEL`; R7 bounds it by 3, and asks that it is not 0. -/
  maxLevel : Fin 4
  /-- `ENTRIES[3]`: any number. R6 makes 512 a replaceable default (D42) and R7 does not bound it, while
  R144 states `ENTRIES[level] <= 512`, which is not asked for here (DESIGN CHOICE, log 35). -/
  entries3 : Nat
  /-- `SEG[0..N_SEG-1]`, the configured segments in ascending j. -/
  segs : List Segment
  /-- `L1_BASE`. -/
  l1Base : Word64
  /-- `TABLE_ALIGN`. -/
  tableAlign : Nat
  /-- `TAG_TABLE`; R7: it fits in bits 1:0. -/
  tagTable : BitVec 2
  /-- `TAG_BLOCK[1..3]`; R7: they fit in bits 1:0. -/
  tagBlock : PerLevel (BitVec 2)
  /-- `ATTR_UNCACHED`. -/
  attrUncached : Word64
  /-- `PARAM_CHECK`. -/
  paramCheck : Bool
  /-- `MAIR_VALUE`. -/
  mairValue : Word64
  /-- `TCR_VALUE`. -/
  tcrValue : Word64
  /-- `OA_MASK[1..3]`, used only by `Walk`. -/
  oaMask : PerLevel Word64
  /-- `NEXT_MASK`, used only by `Walk`. -/
  nextMask : Word64
  /-- `ATTR_MASK`, used only by `Walk`. -/
  attrMask : Word64
  /-- The launch memory map: the ranges of `TM` that are backed (U4, log 5). -/
  tmMap : List MemRange
  /-- `N_CHANNELS`. -/
  nChannels : Nat
  /-- `N_MB`. -/
  nMb : Nat
  /-- `N_RXFIFO`. -/
  nRxFifo : Nat
  /-- `CFIFO_BASE`. -/
  cFifoBase : Nat
  /-- `N_CFIFO`. -/
  nCFifo : Nat
  /-- `MB_CH_STRIDE`, `RXFIFO_CH_STRIDE`, `CFIFO_CH_STRIDE`. -/
  chStride : PerClass Nat
  /-- The register-window base pointer of the channel control block (`43_can_index.md` R185). -/
  windowBase : Nat
  /-- `WIN_OFF[c]`. -/
  winOff : PerClass Nat
  /-- `WIN_STRIDE[c]`. -/
  winStride : PerClass Nat
  /-- `ID_W`. -/
  idW : Fin 33
  /-- `RTR_BIT`. -/
  rtrBit : Fin 32
  /-- `IDE_BIT`. -/
  ideBit : Fin 32
  /-- `DLC_LSB`. -/
  dlcLsb : Fin 29
  /-- `ESI_BIT`. -/
  esiBit : Fin 32
  /-- `BRS_BIT`. -/
  brsBit : Fin 32
  /-- `FDF_BIT`. -/
  fdfBit : Fin 32
  /-- `OPT_ESI`. -/
  optEsi : BitVec 3
  /-- `OPT_BRS`. -/
  optBrs : BitVec 3
  /-- `OPT_FD`. -/
  optFd : BitVec 3
  /-- `DLC_ROUND`. -/
  dlcRound : DlcRound
  /-- `FIFO_DEPTH`; `none` is an unbounded queue (`44_can_frame.md` R216, log 28). -/
  fifoDepth : Option Nat
deriving DecidableEq, Repr

/-- `MAIR_VALUE` at launch: OPEN (O4), no value anywhere in the spec (log 3). -/
opaque Config.mairValue : Word64

/-- `TCR_VALUE` at launch: OPEN (O4), no value anywhere in the spec (log 3). -/
opaque Config.tcrValue : Word64

/-- `ATTR_UNCACHED` at launch: OPEN (O3); no rule uses it (log 3). -/
opaque Config.attrUncached : Word64

/-- The register-window base at launch: OPEN (O5); no rule reads a buffer through it (log 3). -/
opaque Config.windowBase : Nat

/-- `WIN_OFF[c]` at launch: OPEN (O5); no rule reads a buffer through it (log 3). -/
opaque Config.winOff : BufferClass → Nat

/-- `WIN_STRIDE[c]` at launch: OPEN (O5); no rule reads a buffer through it (log 3). -/
opaque Config.winStride : BufferClass → Nat

/-- A free value of `w` bits: nothing is known of it. `draw` counts the responses given so far,
`place` tells the open values of one response apart (U7, U15, log 11, 12, 13). -/
opaque Config.freeValue : (w : Nat) → (draw : Nat) → (place : Nat) → BitVec w

/-- The configuration at launch: R6's defaults; `L1_BASE`, `SEG[j].table_ptr`, `PARAM_CHECK` and
`FIFO_DEPTH` are OPEN and take the values of `95_test_vectors.md`'s conventions (DESIGN CHOICE,
unsafe, log 2); the memory map backs the whole 64-bit space (DESIGN CHOICE, unsafe, log 5). -/
def Cfg.launch : Cfg where
  maxLevel := 3
  entries3 := 512
  segs := [⟨0x00000000, 0x80001000⟩, ⟨0x40000000, 0x80002000⟩,
           ⟨0x80000000, 0x80003000⟩, ⟨0xC0000000, 0x80004000⟩]
  l1Base := 0x80000000
  tableAlign := 4096
  tagTable := 0b11
  tagBlock := ⟨0b01, 0b01, 0b11⟩
  attrUncached := Config.attrUncached
  paramCheck := true
  mairValue := Config.mairValue
  tcrValue := Config.tcrValue
  oaMask := ⟨0x0000FFFFC0000000, 0x0000FFFFFFE00000, 0x0000FFFFFFFFF000⟩
  nextMask := 0x0000FFFFFFFFF000
  attrMask := 0xFFFF000000000FFC
  tmMap := [⟨0, 2 ^ 64⟩]
  nChannels := 2
  nMb := 32
  nRxFifo := 8
  cFifoBase := 64
  nCFifo := 6
  chStride := ⟨32, 0, 0⟩
  windowBase := Config.windowBase
  winOff := ⟨Config.winOff .mb, Config.winOff .rxFifo, Config.winOff .cFifo⟩
  winStride := ⟨Config.winStride .mb, Config.winStride .rxFifo, Config.winStride .cFifo⟩
  idW := 29
  rtrBit := 30
  ideBit := 31
  dlcLsb := 28
  esiBit := 0
  brsBit := 1
  fdfBit := 2
  optEsi := 1
  optBrs := 2
  optFd := 4
  dlcRound := .up
  fifoDepth := some 4

end Sys2Proof
end

