-- ==== Sys2Proof/Syntax.lean ====
section
/-! DEFINITION. The operations of the block, one constructor per row of `spec/opcode_table.json`
(`30_encoding.md` R84), with the operand fields of R81, and the composite data formats R90, R91, R96. -/

namespace Sys2Proof

/-- A region record (`30_encoding.md` R96, `10_state.md` R28). -/
structure Region where
  virtualAddress : Word64
  physicalAddress : Word64
  size : Word64
  attr : Word64
deriving DecidableEq, Repr

/-- `id_mode` of a frame (`30_encoding.md` R90). -/
inductive IdMode where
  | standard
  | extended
deriving DecidableEq, Repr

/-- `type` of a frame (`30_encoding.md` R90). -/
inductive FrameType where
  | data
  | remote
deriving DecidableEq, Repr

/-- A frame record (`30_encoding.md` R90); `len` is the field `data_length_code`, the payload byte
count and not the 4-bit code. -/
structure Frame where
  id : Word32
  idMode : IdMode
  type : FrameType
  options : BitVec 3
  len : Byte
  data : Vector Byte 64
deriving DecidableEq, Repr

/-- A buffer image (`10_state.md` R30, `30_encoding.md` R91). -/
structure Image where
  id : Word32
  ptr : Word32
  fdc : Word32
  data : Vector Byte 64
deriving DecidableEq, Repr

/-- The 21 operations "PDE-ops v1" with their operand fields. -/
inductive Instr where
  /-- PD.FAULT, format N (R111). -/
  | pdFault
  /-- PD.LINK, format A (R112). -/
  | pdLink (addr : Word64)
  /-- PD.BLOCK, format B (R113). -/
  | pdBlock (level : Byte) (addr attr : Word64)
  /-- PD.WRITE, format W (R114). -/
  | pdWrite (entryAddress value : Word64)
  /-- PT.ALLOC, format N (R131). -/
  | ptAlloc
  /-- PT.LINK, format TL (R133). -/
  | ptLink (level : Byte) (basePtr baseVa va child : Word64)
  /-- PT.MAP, format TM (R136). -/
  | ptMap (level : Byte) (basePtr baseVa va pa size attr : Word64)
  /-- PT.FAULT, format TF (R138). -/
  | ptFault (level : Byte) (basePtr baseVa va pa size : Word64)
  /-- PT.BUILD, format L (R141). -/
  | ptBuild (count : BitVec 16) (regions : List Region)
  /-- PT.ACTIVATE, format N (R146). -/
  | ptActivate
  /-- AT.V2P, format A (R148). -/
  | atV2p (addr : Word64)
  /-- AT.P2V, format A (R149). -/
  | atP2v (addr : Word64)
  /-- DLC.B2C, format D (R162). -/
  | dlcB2c (n : Byte)
  /-- DLC.C2B, format D (R163). -/
  | dlcC2b (n : Byte)
  /-- FRM.CHECK, format F (R166). -/
  | frmCheck (frame : Frame)
  /-- IDX.CLASSW, format X (R186). -/
  | idxClassW (channel : Byte) (index : Word32)
  /-- IDX.CLASSR, format X (R187). -/
  | idxClassR (channel : Byte) (index : Word32)
  /-- FRM.ENC, format F (R205). -/
  | frmEnc (frame : Frame)
  /-- FRM.DEC, format I (R208). -/
  | frmDec (img : Image)
  /-- CAN.WRITE, format CW (R212). -/
  | canWrite (channel : Byte) (index : Word32) (frame : Frame)
  /-- CAN.READ, format CR (R220). -/
  | canRead (channel : Byte) (index : Word32)
deriving DecidableEq, Repr

end Sys2Proof
end

