-- ==== Sys2Proof/WellFormed.lean ====
section
/-! DEFINITION. Well-formedness: of an operation as a request can carry it (`30_encoding.md` R81),
and of a configuration (`00_scope.md` R7). -/

namespace Sys2Proof

/-- Format L carries `count` region records: a list of another length is not a request (R81). Every
other format's fields have their widths by type. -/
def Instr.wf : Instr → Bool
  | .pdFault => true
  | .pdLink _ => true
  | .pdBlock _ _ _ => true
  | .pdWrite _ _ => true
  | .ptAlloc => true
  | .ptLink _ _ _ _ _ => true
  | .ptMap _ _ _ _ _ _ _ => true
  | .ptFault _ _ _ _ _ _ => true
  | .ptBuild count regions => regions.length == count.toNat
  | .ptActivate => true
  | .atV2p _ => true
  | .atP2v _ => true
  | .dlcB2c _ => true
  | .dlcC2b _ => true
  | .frmCheck _ => true
  | .idxClassW _ _ => true
  | .idxClassR _ _ => true
  | .frmEnc _ => true
  | .frmDec _ => true
  | .canWrite _ _ _ => true
  | .canRead _ _ => true

/-- The index ranges of R7: disjoint, ascending, inside `u32`. `MB_BASE = 0` and
`RXFIFO_BASE = MB_BASE + N_MB` hold by definition. -/
def Cfg.rangesWf (c : Cfg) : Bool :=
  decide (c.nMb + c.nRxFifo ≤ c.cFifoBase) && decide (c.cFifoBase + c.nCFifo ≤ 2 ^ 32)

/-- R7 on one segment base: a multiple of `STRIDE[1]` below `2^VA_BITS`. -/
def Segment.baseWf (g : Segment) : Bool :=
  decide (g.baseVa.toNat % 2 ^ 30 = 0) && decide (g.baseVa.toNat < 2 ^ 32)

/-- R7 on the segments: at most four, their bases right and distinct. -/
def Cfg.segsWf (c : Cfg) : Bool :=
  decide (c.segs.length ≤ 4) && c.segs.all Segment.baseWf
    && decide ((c.segs.map (·.baseVa)).Nodup)

/-- The tables as (first byte, number of bytes): the level-1 table, then each segment's. -/
def Cfg.tables (c : Cfg) : List (Nat × Nat) :=
  (c.l1Base.toNat, 8 * 4) :: c.segs.map fun g => (g.tablePtr.toNat, 8 * 512)

/-- R7: every table base is a multiple of `TABLE_ALIGN`. -/
def Cfg.alignWf (c : Cfg) : Bool :=
  c.tables.all fun t => t.1 % c.tableAlign == 0

/-- R7: the tables do not overlap one another. A table is the range of integers from its first byte, which
does not wrap at 2^64, although the address of a slot does: whether a table that runs past 2^64 overlaps
what it wraps onto is not in the spec (DESIGN CHOICE, log 34). -/
def Cfg.disjointWf (c : Cfg) : Bool :=
  decide (c.tables.Pairwise fun a b => a.1 + a.2 ≤ b.1 ∨ b.1 + b.2 ≤ a.1)

/-- R7: the tags are nonzero; that they fit in bits 1:0 is their type. -/
def Cfg.tagsWf (c : Cfg) : Bool :=
  c.tagTable != 0 && c.tagBlock.l1 != 0 && c.tagBlock.l2 != 0 && c.tagBlock.l3 != 0

/-- R7: `1 <= MAX_LEVEL`; the bound 3 is its type. -/
def Cfg.levelWf (c : Cfg) : Bool := c.maxLevel != 0

/-- The constraints every `CFG` must satisfy (`00_scope.md` R7). -/
def Cfg.wf (c : Cfg) : Bool :=
  c.rangesWf && c.segsWf && c.alignWf && c.disjointWf && c.tagsWf && c.levelWf

/-- The bit positions of a buffer image do not overlap: identifier, RTR and IDE in the ID word;
ESI, BRS and FDF in the FDC word; the three option values are three different single bits. R7 does
not list these; R92 to R94 and R201 presuppose them. -/
def Cfg.layoutWf (c : Cfg) : Bool :=
  decide (c.idW.val ≤ c.rtrBit.val) && decide (c.idW.val ≤ c.ideBit.val)
    && decide (c.rtrBit ≠ c.ideBit)
    && decide (c.esiBit ≠ c.brsBit) && decide (c.esiBit ≠ c.fdfBit) && decide (c.brsBit ≠ c.fdfBit)
    && decide (c.optEsi ||| c.optBrs ||| c.optFd = 7#3)
    && decide (c.optEsi &&& c.optBrs = 0) && decide (c.optEsi &&& c.optFd = 0)
    && decide (c.optBrs &&& c.optFd = 0)
    && c.optEsi != 0 && c.optBrs != 0 && c.optFd != 0

end Sys2Proof
end

