-- ==== Sys2Proof/Decode.lean ====
section
/-! DEFINITION. Requests as bit strings (`30_encoding.md` R81): the decoder, total on any bits and
rejecting by name, and the encoder. The first field is the most significant and a field's most
significant bit comes first. -/

namespace Sys2Proof

/-! ### Fields -/

/-- The `w` low bits of `v`, most significant first. -/
def fieldBits : (w : Nat) → (v : Nat) → Bits
  | 0, _ => []
  | w + 1, v => v.testBit w :: fieldBits w v

/-- Reads `w` bits as an unsigned number onto `acc`; `none` when the bits run out. -/
def takeNat : (w : Nat) → (acc : Nat) → Bits → Option (Nat × Bits)
  | 0, acc, bs => some (acc, bs)
  | _ + 1, _, [] => none
  | w + 1, acc, b :: bs => takeNat w (2 * acc + b.toNat) bs

/-- Reads one field at its full width, unsigned, neither extended nor scaled (R87). -/
def field (w : Nat) (bs : Bits) : Option (BitVec w × Bits) :=
  (takeNat w 0 bs).map fun (v, rest) => (BitVec.ofNat w v, rest)

/-- A field's bits. -/
def bitsOf {w : Nat} (v : BitVec w) : Bits := fieldBits w v.toNat

/-- Reads `n` bytes, the first one first. -/
def readBytes : (n : Nat) → Bits → Option (Vector Byte n × Bits)
  | 0, bs => some (#v[], bs)
  | n + 1, bs => do
    let (v, bs) ← readBytes n bs
    let (b, bs) ← field 8 bs
    some (v.push b, bs)

/-- The bits of a list of bytes, the first one first. -/
def bytesBits (bytes : List Byte) : Bits := bytes.flatMap bitsOf

/-! ### Composite formats -/

/-- `id_mode` as a bit: 0 standard, 1 extended (R90). -/
def IdMode.code : IdMode → BitVec 1
  | .standard => 0
  | .extended => 1

/-- The `id_mode` a bit stands for (R90). -/
def IdMode.ofCode (b : BitVec 1) : IdMode := if b = 0 then .standard else .extended

/-- `type` as a bit: 0 data, 1 remote (R90). -/
def FrameType.code : FrameType → BitVec 1
  | .data => 0
  | .remote => 1

/-- The `type` a bit stands for (R90). -/
def FrameType.ofCode (b : BitVec 1) : FrameType := if b = 0 then .data else .remote

/-- A frame record, 557 bits, in the field order of R90. -/
def readFrame (bs : Bits) : Option (Frame × Bits) := do
  let (id, bs) ← field 32 bs
  let (m, bs) ← field 1 bs
  let (t, bs) ← field 1 bs
  let (options, bs) ← field 3 bs
  let (len, bs) ← field 8 bs
  let (data, bs) ← readBytes 64 bs
  some (⟨id, .ofCode m, .ofCode t, options, len, data⟩, bs)

/-- The 557 bits of a frame record (R90). -/
def Frame.bits (f : Frame) : Bits :=
  bitsOf f.id ++ (bitsOf f.idMode.code ++ (bitsOf f.type.code ++ (bitsOf f.options
    ++ (bitsOf f.len ++ bytesBits f.data.toList))))

/-- A buffer image, 608 bits, in the field order of R91. -/
def readImage (bs : Bits) : Option (Image × Bits) := do
  let (id, bs) ← field 32 bs
  let (ptr, bs) ← field 32 bs
  let (fdc, bs) ← field 32 bs
  let (data, bs) ← readBytes 64 bs
  some (⟨id, ptr, fdc, data⟩, bs)

/-- The 608 bits of a buffer image (R91). -/
def Image.bits (m : Image) : Bits :=
  bitsOf m.id ++ (bitsOf m.ptr ++ (bitsOf m.fdc ++ bytesBits m.data.toList))

/-- A region record, 256 bits, in the field order of R96. -/
def readRegion (bs : Bits) : Option (Region × Bits) := do
  let (va, bs) ← field 64 bs
  let (pa, bs) ← field 64 bs
  let (size, bs) ← field 64 bs
  let (attr, bs) ← field 64 bs
  some (⟨va, pa, size, attr⟩, bs)

/-- The 256 bits of a region record (R96). -/
def Region.bits (r : Region) : Bits :=
  bitsOf r.virtualAddress ++ (bitsOf r.physicalAddress ++ (bitsOf r.size ++ bitsOf r.attr))

/-- `n` region records. -/
def readRegions : (n : Nat) → Bits → Option (List Region × Bits)
  | 0, bs => some ([], bs)
  | n + 1, bs => do
    let (r, bs) ← readRegion bs
    let (rs, bs) ← readRegions n bs
    some (r :: rs, bs)

/-! ### The operation map -/

/-- The operation select code of an operation (R84). -/
def Instr.opcode : Instr → Byte
  | .pdFault => 0x10
  | .pdLink _ => 0x11
  | .pdBlock _ _ _ => 0x12
  | .pdWrite _ _ => 0x13
  | .ptAlloc => 0x20
  | .ptLink _ _ _ _ _ => 0x21
  | .ptMap _ _ _ _ _ _ _ => 0x22
  | .ptFault _ _ _ _ _ _ => 0x23
  | .ptBuild _ _ => 0x24
  | .ptActivate => 0x25
  | .atV2p _ => 0x26
  | .atP2v _ => 0x27
  | .dlcB2c _ => 0x30
  | .dlcC2b _ => 0x31
  | .frmCheck _ => 0x32
  | .idxClassW _ _ => 0x33
  | .idxClassR _ _ => 0x34
  | .frmEnc _ => 0x35
  | .frmDec _ => 0x36
  | .canWrite _ _ _ => 0x37
  | .canRead _ _ => 0x38

/-- The 21 select codes of R84; every other one is reserved (R85). -/
def opcodes : List Nat :=
  [0x10, 0x11, 0x12, 0x13, 0x20, 0x21, 0x22, 0x23, 0x24, 0x25, 0x26, 0x27,
   0x30, 0x31, 0x32, 0x33, 0x34, 0x35, 0x36, 0x37, 0x38]

/-- The operand fields of the format of `op`, in the order of R81. -/
def readOperands (op : Nat) (bs : Bits) : Option (Instr × Bits) :=
  match op with
  | 0x10 => some (.pdFault, bs)
  | 0x11 => do
    let (addr, bs) ← field 64 bs
    some (.pdLink addr, bs)
  | 0x12 => do
    let (level, bs) ← field 8 bs
    let (addr, bs) ← field 64 bs
    let (attr, bs) ← field 64 bs
    some (.pdBlock level addr attr, bs)
  | 0x13 => do
    let (entryAddress, bs) ← field 64 bs
    let (value, bs) ← field 64 bs
    some (.pdWrite entryAddress value, bs)
  | 0x20 => some (.ptAlloc, bs)
  | 0x21 => do
    let (level, bs) ← field 8 bs
    let (basePtr, bs) ← field 64 bs
    let (baseVa, bs) ← field 64 bs
    let (va, bs) ← field 64 bs
    let (child, bs) ← field 64 bs
    some (.ptLink level basePtr baseVa va child, bs)
  | 0x22 => do
    let (level, bs) ← field 8 bs
    let (basePtr, bs) ← field 64 bs
    let (baseVa, bs) ← field 64 bs
    let (va, bs) ← field 64 bs
    let (pa, bs) ← field 64 bs
    let (size, bs) ← field 64 bs
    let (attr, bs) ← field 64 bs
    some (.ptMap level basePtr baseVa va pa size attr, bs)
  | 0x23 => do
    let (level, bs) ← field 8 bs
    let (basePtr, bs) ← field 64 bs
    let (baseVa, bs) ← field 64 bs
    let (va, bs) ← field 64 bs
    let (pa, bs) ← field 64 bs
    let (size, bs) ← field 64 bs
    some (.ptFault level basePtr baseVa va pa size, bs)
  | 0x24 => do
    let (count, bs) ← field 16 bs
    let (regions, bs) ← readRegions count.toNat bs
    some (.ptBuild count regions, bs)
  | 0x25 => some (.ptActivate, bs)
  | 0x26 => do
    let (addr, bs) ← field 64 bs
    some (.atV2p addr, bs)
  | 0x27 => do
    let (addr, bs) ← field 64 bs
    some (.atP2v addr, bs)
  | 0x30 => do
    let (n, bs) ← field 8 bs
    some (.dlcB2c n, bs)
  | 0x31 => do
    let (n, bs) ← field 8 bs
    some (.dlcC2b n, bs)
  | 0x32 => do
    let (frame, bs) ← readFrame bs
    some (.frmCheck frame, bs)
  | 0x33 => do
    let (channel, bs) ← field 8 bs
    let (index, bs) ← field 32 bs
    some (.idxClassW channel index, bs)
  | 0x34 => do
    let (channel, bs) ← field 8 bs
    let (index, bs) ← field 32 bs
    some (.idxClassR channel index, bs)
  | 0x35 => do
    let (frame, bs) ← readFrame bs
    some (.frmEnc frame, bs)
  | 0x36 => do
    let (img, bs) ← readImage bs
    some (.frmDec img, bs)
  | 0x37 => do
    let (channel, bs) ← field 8 bs
    let (index, bs) ← field 32 bs
    let (frame, bs) ← readFrame bs
    some (.canWrite channel index frame, bs)
  | 0x38 => do
    let (channel, bs) ← field 8 bs
    let (index, bs) ← field 32 bs
    some (.canRead channel index, bs)
  | _ => none

/-- Why a bit string is no operation. -/
inductive DecodeError where
  /-- Fewer than the 8 bits of `op`: not a request (R81). -/
  | tooShort
  /-- A select code that R84 does not list (R85); the block answers it with `Unsupported`. -/
  | reserved (op : Byte)
  /-- The operand fields of `op`'s format do not fill the bits exactly: not a request (R81). -/
  | wrongLength (op : Byte)
deriving DecidableEq, Repr

/-- The decoder: reads `op`, finds the row, takes the operand fields of the row's format (R84). -/
def decode (bs : Bits) : Except DecodeError Instr :=
  match field 8 bs with
  | none => .error .tooShort
  | some (op, rest) =>
    if op.toNat ∉ opcodes then .error (.reserved op)
    else
      match readOperands op.toNat rest with
      | some (i, []) => .ok i
      | _ => .error (.wrongLength op)

/-! ### The encoder -/

/-- The operand fields of an operation, in the order of R81. -/
def Instr.operandBits : Instr → Bits
  | .pdFault => []
  | .pdLink addr => bitsOf addr
  | .pdBlock level addr attr => bitsOf level ++ (bitsOf addr ++ bitsOf attr)
  | .pdWrite entryAddress value => bitsOf entryAddress ++ bitsOf value
  | .ptAlloc => []
  | .ptLink level basePtr baseVa va child =>
    bitsOf level ++ (bitsOf basePtr ++ (bitsOf baseVa ++ (bitsOf va ++ bitsOf child)))
  | .ptMap level basePtr baseVa va pa size attr =>
    bitsOf level ++ (bitsOf basePtr ++ (bitsOf baseVa ++ (bitsOf va ++ (bitsOf pa
      ++ (bitsOf size ++ bitsOf attr)))))
  | .ptFault level basePtr baseVa va pa size =>
    bitsOf level ++ (bitsOf basePtr ++ (bitsOf baseVa ++ (bitsOf va ++ (bitsOf pa
      ++ bitsOf size))))
  | .ptBuild count regions => bitsOf count ++ regions.flatMap Region.bits
  | .ptActivate => []
  | .atV2p addr => bitsOf addr
  | .atP2v addr => bitsOf addr
  | .dlcB2c n => bitsOf n
  | .dlcC2b n => bitsOf n
  | .frmCheck frame => frame.bits
  | .idxClassW channel index => bitsOf channel ++ bitsOf index
  | .idxClassR channel index => bitsOf channel ++ bitsOf index
  | .frmEnc frame => frame.bits
  | .frmDec img => img.bits
  | .canWrite channel index frame => bitsOf channel ++ (bitsOf index ++ frame.bits)
  | .canRead channel index => bitsOf channel ++ bitsOf index

/-- The request that stands for an operation: `op`, then its operand fields (R81). -/
def encode (i : Instr) : Bits := bitsOf i.opcode ++ i.operandBits

/-! ### The host's words

The block has no words and fetches nothing (`10_state.md` R21). The host numbers an operation's bits
as the table does: bits 7..0 are the first byte (`op`), bits 15..8 the second, and so on; the bytes are
laid out in that order, each with its most significant bit first (log 21). -/

/-- The width in bits of a request with this `op` and, for format L, this `count` (R81). A reserved
`op` is taken alone. -/
def requestWidth (op count : Nat) : Nat :=
  match op with
  | 0x11 | 0x26 | 0x27 => 8 + 64
  | 0x12 => 8 + 136
  | 0x13 => 8 + 128
  | 0x21 => 8 + 264
  | 0x22 => 8 + 392
  | 0x23 => 8 + 328
  | 0x24 => 8 + 16 + 256 * count
  | 0x30 | 0x31 => 8 + 8
  | 0x32 | 0x35 => 8 + 557
  | 0x33 | 0x34 | 0x38 => 8 + 40
  | 0x36 => 8 + 608
  | 0x37 => 8 + 40 + 557
  | _ => 8

/-- The first `n` bytes of a table word, the lowest byte first, each most significant bit first. -/
def wordBits : (n : Nat) → (w : Nat) → Bits
  | 0, _ => []
  | n + 1, w => fieldBits 8 (w % 256) ++ wordBits n (w / 256)

/-- The request the host's table word stands for: its bytes, every further bit 0, cut at the width of
its own format. -/
def tableRequest (nbits w : Nat) : Bits :=
  let given := wordBits (nbits / 8) w
  let count := 256 * (w / 256 % 256) + w / 65536 % 256
  let width := requestWidth (w % 256) count
  (given ++ List.replicate (width - given.length) false).take width

/-- The operation the decoder reads from a table word; `none` where it refuses. -/
def decodeTableWord (nbits w : Nat) : Option Instr :=
  match decode (tableRequest nbits w) with
  | .ok i => some i
  | .error _ => none

end Sys2Proof
end

