-- ==== Sys2Proof/Machine/Operands.lean ====
section
/-! DEFINITION. What an operation computes from its operands before it touches a store: strides, slots
and segments (`20_memory.md` R55, R56, `41_pt_fill.md` R130, R135, R139), the unified buffer index
(`43_can_index.md` R181 to R185). -/

namespace Sys2Proof.Machine

/-! ### Constants the source fixes (`00_scope.md` R6) -/

/-- `VA_BITS`. -/
def vaBits : Nat := 32

/-- `STRIDE[level]`. -/
def strideOf : Level → Nat
  | .l1 => 2 ^ 30
  | .l2 => 2 ^ 21
  | .l3 => 2 ^ 12

/-- `ENTRIES[level]`; `ENTRIES[3]` is any number (DESIGN CHOICE, log 35). -/
def entriesOf (c : Cfg) : Level → Nat
  | .l1 => 4
  | .l2 => 512
  | .l3 => c.entries3

/-- `ATTR_FAULT`. -/
def attrFault : Word64 := 0

/-- `MB_BASE`. -/
def mbBase : Nat := 0

/-- `RXFIFO_BASE = MB_BASE + N_MB`. -/
def rxFifoBase (c : Cfg) : Nat := mbBase + c.nMb

/-- `REGION_W`, the width of each field of a region record: R28 and R96 state the record with fields of
this width, a `u64` (D6); a 32-bit list is zero-extended by whoever builds the request. -/
def regionW : Nat := 64

/-! ### Tables -/

/-- The Table Descriptor Record (`10_state.md` R35), alive only inside a fill operation. -/
structure TableRecord where
  level : Byte
  basePtr : Word64
  baseVa : Word64
deriving DecidableEq, Repr

/-- The level an operand names, if it lies between 1 and `hi` (`40_pd_encode.md` R113,
`41_pt_fill.md` R130); `none` is the spec's `InvalidArgument`. -/
def levelUpTo (hi : Nat) (level : Byte) : Option Level :=
  if level.toNat ≤ hi then
    match level.toNat with
    | 1 => some .l1
    | 2 => some .l2
    | 3 => some .l3
    | _ => none
  else none

/-- `CheckTable` with `lo = 1` (`41_pt_fill.md` R130): the level first, then `va >= base_va`; `none` is
the spec's `InvalidArgument`. -/
def checkTable (hi : Nat) (r : TableRecord) (va : Word64) : Option Level :=
  match levelUpTo hi r.level with
  | none => none
  | some l => if va.toNat < r.baseVa.toNat then none else some l

/-- Every operand is a multiple of the level's stride (`41_pt_fill.md` R134). -/
def allAligned (l : Level) (vals : List Word64) : Bool :=
  vals.all fun v => v.toNat % strideOf l == 0

/-- The slot that holds `va`, as integers (`20_memory.md` R56). -/
def slotOf (l : Level) (baseVa va : Word64) : Nat :=
  (va.toNat - baseVa.toNat) / strideOf l

/-- The number of slots a size covers (`41_pt_fill.md` R135). -/
def slotCount (l : Level) (size : Word64) : Nat :=
  size.toNat / strideOf l

/-- The byte address of slot `s` of the table at `basePtr` (`10_state.md` R27), modulo 2^64. -/
def slotAddr (basePtr : Word64) (s : Nat) : Word64 :=
  basePtr + BitVec.ofNat 64 (8 * s)

/-- The segment a region goes to: the greatest base at or below `va` (`41_pt_fill.md` R139). -/
def selectSegment (va : Word64) : List Segment → Option Segment
  | [] => none
  | g :: gs =>
    match selectSegment va gs with
    | none => if g.baseVa.toNat ≤ va.toNat then some g else none
    | some b =>
      if g.baseVa.toNat ≤ va.toNat ∧ b.baseVa.toNat < g.baseVa.toNat then some g else some b

/-- A record is the sentinel exactly when all four fields are `2^64 - 1` (`30_encoding.md` R96). -/
def isSentinel (r : Region) : Bool :=
  r.virtualAddress == BitVec.allOnes 64 && r.physicalAddress == BitVec.allOnes 64
    && r.size == BitVec.allOnes 64 && r.attr == BitVec.allOnes 64

/-! ### The unified buffer index -/

/-- The class code of a result (`30_encoding.md` R99). -/
def classCode : BufferClass → BitVec 2
  | .mb => 0
  | .rxFifo => 1
  | .cFifo => 2

/-- `Classify(index)` (`43_can_index.md` R182): the class and the local index k. R7 makes the ranges
disjoint; where a `CFG` breaks R7 the spec's rules have no meaning and the first range that holds the index
wins (DESIGN CHOICE, log 32). -/
def classify (c : Cfg) (index : Nat) : Option (BufferClass × Nat) :=
  if index < c.nMb then some (.mb, index - mbBase)
  else if rxFifoBase c ≤ index ∧ index < rxFifoBase c + c.nRxFifo then
    some (.rxFifo, index - rxFifoBase c)
  else if c.cFifoBase ≤ index ∧ index < c.cFifoBase + c.nCFifo then
    some (.cFifo, index - c.cFifoBase)
  else none

/-- The two-way classification of a write: an RX-FIFO index is outside all valid ranges
(`43_can_index.md` R183). -/
def classifyWrite (c : Cfg) (index : Nat) : Option (BufferClass × Nat) :=
  match classify c index with
  | some (.rxFifo, _) => none
  | other => other

/-- `h = k + channel * CH_STRIDE[class]`, as integers (`43_can_index.md` R184). -/
def hwIndex (c : Cfg) (cls : BufferClass) (k channel : Nat) : Nat :=
  k + channel * c.chStride.forClass cls

/-- How many buffers of a class exist (`10_state.md` R31 to R34). -/
def bankSize (c : Cfg) (cls : BufferClass) : Nat :=
  let perChannel := c.chStride.forClass cls
  if perChannel = 0 then
    match cls with
    | .mb => c.nMb
    | .rxFifo => c.nRxFifo
    | .cFifo => c.nCFifo
  else c.nChannels * perChannel

/-- The byte address of buffer `(cls, h)` in the register window (`43_can_index.md` R185). No
operation reads a buffer through it. -/
def windowAddr (c : Cfg) (cls : BufferClass) (h : Nat) : Nat :=
  c.windowBase + (c.winOff.forClass cls + h * c.winStride.forClass cls)

end Sys2Proof.Machine
end

