-- ==== Sys2Proof/Machine/State.lean ====
section
/-! DEFINITION. The state of the block and its environment as plain data (`10_state.md` section 7),
the response (`30_encoding.md` R82), the inputs that stand for the other agents, the reasons a step can
stop, and the state after reset. -/

namespace Sys2Proof.Machine

/-! ### Responses -/

/-- The status kinds of `60_exceptions.md` R240. -/
inductive Status where
  | ok
  | invalidArgument
  | alreadyOpen
  | notOpen
  | inUse
  | channelNotPresent
  | initFailed
  | canTransmitNotReady
  | bufferEmpty
  | unsupported
  | invalidMode
  | timeout
deriving DecidableEq, Repr

/-- The result fields of a response (`30_encoding.md` R82). -/
inductive Result where
  /-- No result field. -/
  | none
  /-- `desc[63:0]`. -/
  | desc (d : Word64)
  /-- `addr[63:0]`. -/
  | addr (a : Word64)
  /-- `code[3:0]`. -/
  | code (c : BitVec 4)
  /-- `bytes[7:0]`. -/
  | bytes (n : Byte)
  /-- `cls[1:0]`, `k[31:0]`, `h[31:0]`. -/
  | index (cls : BitVec 2) (k h : Word32)
  /-- `img`. -/
  | image (img : Image)
  /-- `frame`. -/
  | frame (f : Frame)
deriving DecidableEq, Repr

/-- Which result fields an operation's response carries (`30_encoding.md` R82). -/
inductive ResultShape where
  | none
  | desc
  | addr
  | code
  | bytes
  | index
  | image
  | frame
deriving DecidableEq, Repr

/-- A response: a status and the result fields of the operation (`30_encoding.md` R82). -/
structure Response where
  status : Status
  result : Result
deriving DecidableEq, Repr

/-! ### Stores -/

/-- Translation-table memory (`10_state.md` R27): (address, byte) pairs in one canonical form,
`Memory.wf` of `Machine/Ops.lean`. -/
abbrev Memory := List Host.Cell

/-- A 64-bit store into a slot of `TM` that the walker need not see yet: the slot's address and the
whole value it held before (`20_memory.md` R52, R57). -/
structure SlotStore where
  addr : Word64
  old : Word64
deriving DecidableEq, Repr

/-- A transmit message buffer `TXMB[h]` (`10_state.md` R31). -/
structure TxBuffer where
  img : Image
  busy : Bool
deriving DecidableEq, Repr

/-- A receive message buffer `RXMB[h]` (`10_state.md` R32). -/
structure RxBuffer where
  img : Image
  newdata : Bool
deriving DecidableEq, Repr

/-- A common FIFO `CFIFO[k]` (`10_state.md` R34), each queue oldest first. -/
structure CommonFifo where
  txq : List Image
  rxq : List Image
deriving DecidableEq, Repr

/-! ### Inputs -/

/-- What an agent other than the block does next (log 1). -/
inductive Input where
  /-- The requester issues one operation (`30_encoding.md` R80, R81). -/
  | request (bits : Bits)
  /-- The requester issues the pseudo-operation MMU.OPEN on the deployment's list (R89, log 19). -/
  | mmuOpen
  /-- The requester performs the barrier it owes (`70_reset_and_hazards.md` R281). -/
  | requesterBarrier
  /-- Peripheral move (a) of `10_state.md` R39: `TXMB[h].busy` is cleared. -/
  | txDone (h : Nat)
  /-- Peripheral move (b): an image is written to `RXMB[h]` and `newdata` set. -/
  | deliverMb (h : Nat) (img : Image)
  /-- Peripheral move (c): an image is appended to `RXFIFO[k].q`. -/
  | deliverRxFifo (k : Nat) (img : Image)
  /-- Peripheral move (c): an image is appended to `CFIFO[k].rxq`. -/
  | deliverCFifo (k : Nat) (img : Image)
  /-- Peripheral move (d): the head of `CFIFO[k].txq` is removed. -/
  | cFifoSent (k : Nat)
  /-- The table walker reads the slot at `addr` (`10_state.md` R37), now, or, when `within` is true, at
  some moment inside the last operation; `choice` picks one of the values it may see (log 16). -/
  | walkerRead (addr : Word64) (within : Bool) (choice : Nat)
deriving DecidableEq, Repr

/-! ### The state -/

/-- The block, the environment state it shares, and what the agents do next. -/
structure State where
  /-- `CFG`; constant (`70_reset_and_hazards.md` R275). -/
  cfg : Cfg
  /-- `RL`; constant (`70_reset_and_hazards.md` R271). -/
  rl : List Region
  /-- `TM`, every store in it that has been issued. -/
  tm : Memory
  /-- The stores since the last barrier (`10_state.md` R40, `20_memory.md` R58), oldest first. -/
  unsynced : List SlotStore
  /-- The stores a walker read inside the last operation may not have seen (`20_memory.md` R57,
  `70_reset_and_hazards.md` R282), oldest first. -/
  opWindow : List SlotStore
  /-- `MAIR` (`10_state.md` R38). -/
  mair : Word64
  /-- `TCR`. -/
  tcr : Word64
  /-- `TTBR`. -/
  ttbr : Word64
  /-- `TXMB`. -/
  txmb : List TxBuffer
  /-- `RXMB`. -/
  rxmb : List RxBuffer
  /-- `RXFIFO[k].q`, oldest first (`10_state.md` R33). -/
  rxfifo : List (List Image)
  /-- `CFIFO`. -/
  cfifo : List CommonFifo
  /-- MODEL's own: what the agents do next, the next one first (log 1). -/
  inputs : List Input
  /-- MODEL's own: the last response, the block's output port (log 10). -/
  rsp : Option Response
  /-- MODEL's own: what the walker's last read gave it (log 10). -/
  walkerSees : Option Word64
  /-- MODEL's own: the number of responses given, the argument of the free values (log 10). -/
  draws : Nat
deriving DecidableEq, Repr

/-! ### Stops -/

/-- The block has no trap (`60_exceptions.md` R245); a fault is an access to storage that does not
exist. -/
inductive Fault where
  /-- A store to `TM` at an address the launch memory map does not back (U4, log 5). Raised by
  `memWrite`. Safe: the model stops where the spec gives no effect. -/
  | unbackedSlot
  /-- A hardware index with no buffer in its bank, possible only with channel strides that reach past
  the bank (`10_state.md` R31 to R34, log 15). Raised by CAN.WRITE and CAN.READ. Safe. -/
  | bufferAbsent
deriving DecidableEq, Repr

/-- The spec's refusals (`60_exceptions.md` R243): requests it gives no behaviour. -/
inductive Refusal where
  /-- An operation with no meaning in this model; no arm of `exec` uses it. Safe. -/
  | notModelled (mnemonic : String)
  /-- A store to a slot address that is no multiple of 8 (U6, `40_pd_encode.md` R114). Raised by
  `memWrite`. Safe. -/
  | misalignedSlot
  /-- A misaligned fill operand with `PARAM_CHECK` off (U2, `41_pt_fill.md` R134). Raised by
  `checkAlign`. Safe. -/
  | misalignedWithoutCheck
  /-- A fill that runs past its table (U5, `41_pt_fill.md` R135). Raised by the fill operations. Safe. -/
  | slotOutOfTable
  /-- A region list without its sentinel (U13, `41_pt_fill.md` R140). Raised by PT.BUILD. Safe. -/
  | noSentinel
  /-- An identifier of `2^ID_W` or more (U10, `44_can_frame.md` R204). Raised by FRM.ENC and CAN.WRITE.
  Safe. -/
  | idOutOfRange
  /-- A channel of `N_CHANNELS` or more (U11, `43_can_index.md` R184). Raised by the IDX and CAN
  operations. Safe. -/
  | channelOutOfRange
  /-- A write to a common FIFO that holds `FIFO_DEPTH` images (U9, `44_can_frame.md` R216). Raised by
  CAN.WRITE. Safe. -/
  | fifoFull
  /-- Bits that are no request of R81: too short, or not the width of the format of their `op`
  (log 20). Raised by `runRequest`. Safe. -/
  | malformedRequest
  /-- An input that is not one of the moves of `10_state.md` R37, R39 in this state (log 18). Raised by
  the environment's moves. Safe. -/
  | environmentMove
deriving DecidableEq, Repr

/-! ### Reset -/

/-- The image all of whose words and bytes are 0, `ZeroImage` of `44_can_frame.md` R201. -/
def zeroImage : Image := ⟨0, 0, 0, Vector.replicate 64 0⟩

/-- The state after reset (`70_reset_and_hazards.md` R270 to R275) of a machine with the configuration `c`,
whose deployment lists the regions `rl` and launches with `tm` in table memory (R6, R270, R271: `CFG`, `RL`
and the content of `TM` are the model's arguments). The banks are those of `10_state.md` R31 to R34;
`busy`, `newdata` and the queues are R273's; the three CPU registers and the images are values the spec
leaves open (DESIGN CHOICE, unsafe, log 6, 7). Nothing is presented to the block. -/
def State.resetOf (c : Cfg) (rl : List Region) (tm : Memory) : State where
  cfg := c
  rl := rl
  tm := tm
  unsynced := []
  opWindow := []
  mair := 0
  tcr := 0
  ttbr := 0
  txmb := List.replicate (bankSize c .mb) ⟨zeroImage, false⟩
  rxmb := List.replicate (bankSize c .mb) ⟨zeroImage, false⟩
  rxfifo := List.replicate (bankSize c .rxFifo) []
  cfifo := List.replicate (bankSize c .cFifo) ⟨[], []⟩
  inputs := []
  rsp := none
  walkerSees := none
  draws := 0

/-- The machine right after reset, at the launch configuration; the region list is the sentinel alone and
`tm` lists nothing (DESIGN CHOICE, unsafe, log 2, 4, 9). -/
def State.reset : State :=
  State.resetOf Cfg.launch
    [⟨BitVec.allOnes 64, BitVec.allOnes 64, BitVec.allOnes 64, BitVec.allOnes 64⟩] []

end Sys2Proof.Machine
end

