-- ==== Sys2Proof/Machine/Flags.lean ====
section
/-! DEFINITION. The status bits operations read and write (`10_state.md` R22 to R25). There are no
arithmetic condition codes. -/

namespace Sys2Proof.Machine

/-- `TXMB[h].busy`, "transmit in progress" (`10_state.md` R23). -/
def transmitInProgress (b : TxBuffer) : Bool := b.busy

/-- The "transmit request": `TXMB[h].busy <- 1` (`10_state.md` R23). -/
def requestTransmit (img : Image) : TxBuffer := { img := img, busy := true }

/-- The peripheral clears "transmit in progress" (`10_state.md` R39 move (a)). -/
def clearBusy (b : TxBuffer) : TxBuffer := { b with busy := false }

/-- `RXMB[h].newdata`, the not-empty status of a message buffer (`10_state.md` R24). -/
def mbNotEmpty (b : RxBuffer) : Bool := b.newdata

/-- A read clears "new data"; the image stays (`44_can_frame.md` R220). -/
def clearNewData (b : RxBuffer) : RxBuffer := { b with newdata := false }

/-- The peripheral writes an image and sets "new data" (`10_state.md` R39 move (b)). -/
def deliver (img : Image) : RxBuffer := { img := img, newdata := true }

/-- The not-empty status of a FIFO is derived from its queue (`10_state.md` R25). -/
def fifoNotEmpty (q : List Image) : Bool := !q.isEmpty

end Sys2Proof.Machine
end

