-- ==== Sys2Proof/Machine/Ops.lean ====
section
/-! DEFINITION. The named operations over the stores and the response: bytes and slots of `TM`,
`MemWrite`, `Barrier`, answering, raising an error, and putting an operation together from steps. -/

namespace Sys2Proof.Machine

/-! ### Bytes of `TM` -/

/-- What a byte that nothing has written reads as (DESIGN CHOICE, unsafe, log 4; the spec's launch
premise `TablesZeroed`, `70_reset_and_hazards.md` R270). -/
def unwritten : Byte := 0

/-- The byte at an address. -/
def Memory.byte : Memory → Nat → Byte
  | [], _ => unwritten
  | (a', b) :: m, a => if a' = a then b else Memory.byte m a

/-- `m` without any entry for `a`. -/
def Memory.erase (m : Memory) (a : Nat) : Memory := m.filter fun c => c.1 != a

/-- Puts an entry before the first one with a greater address. -/
def Memory.insertCell (a : Nat) (b : Byte) : Memory → Memory
  | [] => [(a, b)]
  | (a', b') :: m => if a < a' then (a, b) :: (a', b') :: m else (a', b') :: Memory.insertCell a b m

/-- Writes one byte and keeps the canonical form: writing what an unlisted byte reads as removes the
entry. -/
def Memory.setByte (m : Memory) (a : Nat) (b : Byte) : Memory :=
  if b = unwritten then m.erase a else Memory.insertCell a b (m.erase a)

/-- Addresses strictly rising from `lo`, and no entry equal to what an unlisted address reads as. -/
def Memory.wfFrom : Nat → Memory → Bool
  | _, [] => true
  | lo, (a, b) :: m => decide (lo ≤ a) && decide (a < 2 ^ 64) && b != unwritten
      && Memory.wfFrom (a + 1) m

/-- The canonical form of a memory: equal contents are equal lists. -/
def Memory.wf (m : Memory) : Bool := Memory.wfFrom 0 m

/-! ### Slots of `TM` -/

/-- `MemRead(addr, 8)`: little-endian (`20_memory.md` R50). -/
def Memory.slot (m : Memory) (a : Nat) : Word64 :=
  m.byte (a + 7) ++ m.byte (a + 6) ++ m.byte (a + 5) ++ m.byte (a + 4)
    ++ m.byte (a + 3) ++ m.byte (a + 2) ++ m.byte (a + 1) ++ m.byte a

/-- Byte `i` of a 64-bit value: bits `8*i+7` to `8*i` (`20_memory.md` R50). -/
def byteOf (v : Word64) (i : Nat) : Byte := v.extractLsb' (8 * i) 8

/-- Writes the bytes `n - 1` to `0` of `v` at `a + n - 1` to `a`. -/
def Memory.setBytes (m : Memory) (a : Nat) (v : Word64) : (n : Nat) → Memory
  | 0 => m
  | n + 1 => Memory.setBytes (m.setByte (a + n) (byteOf v n)) a v n

/-- Replaces a whole slot: `v[7:0]` at `a`, `v[63:56]` at `a + 7` (`20_memory.md` R50, R52). -/
def Memory.setSlot (m : Memory) (a : Nat) (v : Word64) : Memory := m.setBytes a v 8

/-- `MemRead(addr, 8)` of the state's `TM`. The block never uses it (`20_memory.md` R54). -/
def memRead (s : State) (a : Word64) : Word64 := s.tm.slot a.toNat

/-- The launch memory map backs the eight bytes at `a` (U4, log 5). -/
def slotBacked (c : Cfg) (a : Word64) : Bool :=
  c.tmMap.any fun r => decide (r.base ≤ a.toNat) && decide (a.toNat + 8 ≤ r.base + r.size)

/-! ### Operations put together from steps -/

/-- How far an operation has come: it goes on, it has raised an error (the stores made before it stand,
`00_scope.md` R9), or it stops without a next state. -/
inductive Progress where
  | ok (s : State)
  | raised (e : Status) (s : State)
  | fault (f : Fault)
  | refused (r : Refusal)
deriving DecidableEq, Repr

/-- The next step of an operation, if it goes on. -/
def Progress.andThen : Progress → (State → Progress) → Progress
  | .ok s, k => k s
  | .raised e s, _ => .raised e s
  | .fault f, _ => .fault f
  | .refused r, _ => .refused r

/-! ### `MemWrite` and `Barrier` -/

/-- A stored slot: the new contents, and what the walker may still see instead (`20_memory.md` R52,
R57; the old value is kept for the walker's sake only, the block reads nothing, R54). -/
def State.storeSlot (s : State) (a : Word64) (v : Word64) : State :=
  { s with
    tm := s.tm.setSlot a.toNat v
    unsynced := s.unsynced ++ [⟨a, memRead s a⟩]
    opWindow := s.opWindow ++ [⟨a, memRead s a⟩] }

/-- `MemWrite(addr, 8, v)` as PD.WRITE performs it (`40_pd_encode.md` R114): one indivisible store to a
naturally aligned, backed slot. -/
def memWrite (a v : Word64) (s : State) : Progress :=
  if a.toNat % 8 ≠ 0 then .refused .misalignedSlot
  else if slotBacked s.cfg a then .ok (s.storeSlot a v)
  else .fault .unbackedSlot

/-- `Barrier()` (`20_memory.md` R58): every store issued before it is visible to the walker. -/
def State.barrier (s : State) : State := { s with unsynced := [] }

/-- An operation begins: from here on a walker read inside it sees the stores before the last barrier,
and may miss any later one (`20_memory.md` R57). -/
def State.beginOp (s : State) : State := { s with opWindow := s.unsynced }

/-! ### Answering, and raising an error -/

/-- The block answers (`30_encoding.md` R80, R82). -/
def State.respond (s : State) (e : Status) (r : Result) : State :=
  { s with rsp := some ⟨e, r⟩, draws := s.draws + 1 }

/-- A payload all of whose bytes are free values. -/
def freeData (draw : Nat) : Vector Byte 64 := Vector.ofFn fun i => Config.freeValue 8 draw i.val

/-- Result fields that are unspecified: free values (`30_encoding.md` R82, U15, log 11). Places 0 to 63
are payload bytes, so that no two fields of one result share a draw and a place. -/
def freeResult (draw : Nat) : ResultShape → Result
  | .none => .none
  | .desc => .desc (Config.freeValue 64 draw 0)
  | .addr => .addr (Config.freeValue 64 draw 0)
  | .code => .code (Config.freeValue 4 draw 0)
  | .bytes => .bytes (Config.freeValue 8 draw 0)
  | .index => .index (Config.freeValue 2 draw 0) (Config.freeValue 32 draw 1)
      (Config.freeValue 32 draw 2)
  | .image => .image ⟨Config.freeValue 32 draw 64, Config.freeValue 32 draw 65,
      Config.freeValue 32 draw 66, freeData draw⟩
  | .frame => .frame ⟨Config.freeValue 32 draw 64, .ofCode (Config.freeValue 1 draw 65),
      .ofCode (Config.freeValue 1 draw 66), Config.freeValue 3 draw 67, Config.freeValue 8 draw 68,
      freeData draw⟩

/-- `raise E` (`00_scope.md` R9, `60_exceptions.md` R242, R245): the response carries the kind and
nothing else; no state is saved, no control is transferred. There is no return from it (R246): the next
operation is taken like any other. `shape` names the operation's result fields, which become free. -/
def State.raise (s : State) (e : Status) (shape : ResultShape) : State :=
  s.respond e (freeResult s.draws shape)

/-- The outcome of an operation without result fields: `return` answers `OK` (`00_scope.md` R9). -/
def Progress.answer : Progress → Host.Outcome State Fault Refusal
  | .ok s => .next (s.respond .ok .none)
  | .raised e s => .next (s.raise e .none)
  | .fault f => .fault f
  | .refused r => .refused r

end Sys2Proof.Machine
end

