-- ==== Sys2Proof/Machine/Descriptor.lean ====
section
/-! DEFINITION. The page-descriptor encoder and writer: the PD family (`40_pd_encode.md` R110 to R116). -/

namespace Sys2Proof.Machine

/-- The fault descriptor (`20_memory.md` R64, `40_pd_encode.md` R111). -/
def faultDesc : Word64 := 0

/-- `LinkDesc(a) = a | zext_64(TAG_TABLE)` (`40_pd_encode.md` R112). -/
def linkDesc (c : Cfg) (a : Word64) : Word64 := a ||| c.tagTable.setWidth 64

/-- `BlockDesc(l, a, t) = a | t | zext_64(TAG_BLOCK[l])` (`40_pd_encode.md` R113): bitwise OR and
nothing else (R110). -/
def blockDesc (c : Cfg) (l : Level) (a t : Word64) : Word64 :=
  a ||| t ||| (c.tagBlock.forLevel l).setWidth 64

/-- PD.FAULT (`40_pd_encode.md` R111). -/
def execPdFault (s : State) : Host.Outcome State Fault Refusal :=
  .next (s.respond .ok (.desc faultDesc))

/-- PD.LINK (`40_pd_encode.md` R112). -/
def execPdLink (addr : Word64) (s : State) : Host.Outcome State Fault Refusal :=
  .next (s.respond .ok (.desc (linkDesc s.cfg addr)))

/-- PD.BLOCK (`40_pd_encode.md` R113). -/
def execPdBlock (level : Byte) (addr attr : Word64) (s : State) :
    Host.Outcome State Fault Refusal :=
  match levelUpTo s.cfg.maxLevel.val level with
  | none => .next (s.raise .invalidArgument .desc)
  | some l => .next (s.respond .ok (.desc (blockDesc s.cfg l addr attr)))

/-- PD.WRITE (`40_pd_encode.md` R114): one store, no barrier. -/
def execPdWrite (entryAddress value : Word64) (s : State) : Host.Outcome State Fault Refusal :=
  (memWrite entryAddress value s).answer

end Sys2Proof.Machine
end

