-- ==== Sys2Proof/Machine/Fill.lean ====
section
/-! DEFINITION. The table-fill sequencer: the PT family (`41_pt_fill.md` R130 to R147). -/

namespace Sys2Proof.Machine

/-! ### Shared steps -/

/-- `CheckAlign(level, vals)` (`41_pt_fill.md` R134). -/
def checkAlign (l : Level) (vals : List Word64) (s : State) : Progress :=
  if allAligned l vals then .ok s
  else if s.cfg.paramCheck then .raised .invalidArgument s
  else .refused .misalignedWithoutCheck

/-- One `MemWrite` for each descriptor, into ascending slots from `slot` (`41_pt_fill.md` R136). -/
def fillSlots (basePtr : Word64) (slot : Nat) : List Word64 → State → Progress
  | [], s => .ok s
  | d :: ds, s => (memWrite (slotAddr basePtr slot) d s).andThen (fillSlots basePtr (slot + 1) ds)

/-- The slots from `first` are filled with `ds` and a barrier follows, if they lie in the table
(`41_pt_fill.md` R135). -/
def fillTable (basePtr : Word64) (first : Nat) (ds : List Word64) (s : State) : Progress :=
  (fillSlots basePtr first ds s).andThen fun s => .ok s.barrier

/-- The block descriptors of `count` consecutive slots, the physical address advancing by the stride
modulo 2^64 (`41_pt_fill.md` R136). -/
def blockRun (c : Cfg) (l : Level) (attr : Word64) : (count : Nat) → (p : Word64) → List Word64
  | 0, _ => []
  | n + 1, p => blockDesc c l p attr :: blockRun c l attr n (p + BitVec.ofNat 64 (strideOf l))

/-- PT.LINK as a step (`41_pt_fill.md` R133). -/
def linkStep (r : TableRecord) (va child : Word64) (s : State) : Progress :=
  match checkTable (s.cfg.maxLevel.val - 1) r va with
  | none => .raised .invalidArgument s
  | some l => (checkAlign l [va] s).andThen fun s =>
    if entriesOf s.cfg l ≤ slotOf l r.baseVa va then .refused .slotOutOfTable
    else fillTable r.basePtr (slotOf l r.baseVa va) [linkDesc s.cfg child] s

/-- The checks PT.MAP and PT.FAULT share, then the fill with the descriptors `descs` gives for the
level and the slot count (`41_pt_fill.md` R130, R134, R135). -/
def rangeStep (r : TableRecord) (va pa size : Word64) (descs : Level → Nat → List Word64)
    (s : State) : Progress :=
  match checkTable s.cfg.maxLevel.val r va with
  | none => .raised .invalidArgument s
  | some l => (checkAlign l [va, pa, size] s).andThen fun s =>
    if entriesOf s.cfg l < slotOf l r.baseVa va + slotCount l size then .refused .slotOutOfTable
    else fillTable r.basePtr (slotOf l r.baseVa va) (descs l (slotCount l size)) s

/-- PT.MAP as a step (`41_pt_fill.md` R136). -/
def mapStep (r : TableRecord) (va pa size attr : Word64) (s : State) : Progress :=
  rangeStep r va pa size (fun l count => blockRun s.cfg l attr count pa) s

/-- PT.FAULT as a step (`41_pt_fill.md` R138). -/
def faultStep (r : TableRecord) (va pa size : Word64) (s : State) : Progress :=
  rangeStep r va pa size (fun _ count => List.replicate count faultDesc) s

/-! ### The builder -/

/-- One link for each configured segment, ascending (`41_pt_fill.md` R141). -/
def linkSegments : List Segment → State → Progress
  | [], s => .ok s
  | g :: gs, s =>
    (linkStep ⟨1, s.cfg.l1Base, 0⟩ g.baseVa g.tablePtr s).andThen (linkSegments gs)

/-- One region in its segment's table, at level 2; an attribute of `ATTR_FAULT` is a fault fill
(`41_pt_fill.md` R141). -/
def regionStep (g : Segment) (r : Region) (s : State) : Progress :=
  if r.attr = attrFault then
    faultStep ⟨2, g.tablePtr, g.baseVa⟩ r.virtualAddress r.physicalAddress r.size s
  else
    mapStep ⟨2, g.tablePtr, g.baseVa⟩ r.virtualAddress r.physicalAddress r.size r.attr s

/-- The regions in list order up to the first sentinel (`41_pt_fill.md` R139, R140, R142). -/
def buildRegions : List Region → State → Progress
  | [], _ => .refused .noSentinel
  | r :: rs, s =>
    if isSentinel r then .ok s
    else
      match selectSegment r.virtualAddress s.cfg.segs with
      | none => .raised .invalidArgument s
      | some g => (regionStep g r s).andThen (buildRegions rs)

/-- PT.BUILD as a step (`41_pt_fill.md` R141). -/
def buildStep (count : Nat) (regions : List Region) (s : State) : Progress :=
  (linkSegments s.cfg.segs s).andThen (buildRegions (regions.take count))

/-! ### The operations -/

/-- PT.ALLOC (`41_pt_fill.md` R131): always `Unsupported`. -/
def execPtAlloc (s : State) : Host.Outcome State Fault Refusal :=
  .next (s.raise .unsupported .none)

/-- PT.LINK (`41_pt_fill.md` R133). -/
def execPtLink (level : Byte) (basePtr baseVa va child : Word64) (s : State) :
    Host.Outcome State Fault Refusal :=
  (linkStep ⟨level, basePtr, baseVa⟩ va child s).answer

/-- PT.MAP (`41_pt_fill.md` R136). -/
def execPtMap (level : Byte) (basePtr baseVa va pa size attr : Word64) (s : State) :
    Host.Outcome State Fault Refusal :=
  (mapStep ⟨level, basePtr, baseVa⟩ va pa size attr s).answer

/-- PT.FAULT (`41_pt_fill.md` R138). -/
def execPtFault (level : Byte) (basePtr baseVa va pa size : Word64) (s : State) :
    Host.Outcome State Fault Refusal :=
  (faultStep ⟨level, basePtr, baseVa⟩ va pa size s).answer

/-- PT.BUILD (`41_pt_fill.md` R141). -/
def execPtBuild (count : BitVec 16) (regions : List Region) (s : State) :
    Host.Outcome State Fault Refusal :=
  (buildStep count.toNat regions s).answer

/-- The three register writes of activation with the barrier before the last (`41_pt_fill.md` R146). -/
def State.activate (s : State) : State :=
  { s with
    mair := s.cfg.mairValue
    tcr := s.cfg.tcrValue
    unsynced := []
    ttbr := s.cfg.l1Base ||| 1 }

/-- PT.ACTIVATE (`41_pt_fill.md` R146). -/
def execPtActivate (s : State) : Host.Outcome State Fault Refusal :=
  .next (s.activate.respond .ok .none)

/-- The status of the last response is `OK`. -/
def answeredOk (s : State) : Bool :=
  match s.rsp with
  | some r => r.status == .ok
  | none => false

/-- The pseudo-operation MMU.OPEN (`30_encoding.md` R89): PT.BUILD and, only if that answered `OK`,
PT.ACTIVATE; its status is the status of the last operation performed. A list that does not fit the
16-bit `count` is no request (log 20). -/
def execMmuOpen (regions : List Region) (s : State) : Host.Outcome State Fault Refusal :=
  if regions.length < 2 ^ 16 then
    match execPtBuild (BitVec.ofNat 16 regions.length) regions s with
    | .next t => if answeredOk t then execPtActivate t else .next t
    | .fault f => .fault f
    | .refused r => .refused r
  else .refused .malformedRequest

end Sys2Proof.Machine
end

