-- ==== Sys2Proof/Machine/Dlc.lean ====
section
/-! DEFINITION. The DLC mapping and the frame validity check (`42_can_dlc.md` R160 to R166). -/

namespace Sys2Proof.Machine

/-- `DLC_BYTES` (`42_can_dlc.md` R160), code 0 first. -/
def dlcTable : List Nat := [0, 1, 2, 3, 4, 5, 6, 7, 8, 12, 16, 20, 24, 32, 48, 64]

/-- `DLC_BYTES[code]`; a code has 4 bits. -/
def dlcBytes (code : BitVec 4) : Nat := dlcTable.getD code.toNat 0

/-- `VALID_LEN` (`42_can_dlc.md` R161): the image of `DLC_BYTES`. -/
def validLen (n : Nat) : Bool := dlcTable.contains n

/-- `ceil_div(a, b)`, as integers (`00_scope.md` R8). -/
def ceilDiv (a b : Nat) : Nat := (a + b - 1) / b

/-- The quotient `DLC_ROUND` asks for (`42_can_dlc.md` R162). -/
def roundedDiv : DlcRound → Nat → Nat → Nat
  | .up, a, b => ceilDiv a b
  | .down, a, b => a / b

/-- `B2C(n)` (`42_can_dlc.md` R162); `none` is `InvalidArgument`, for more than 64 bytes. -/
def bytesToDlc (round : DlcRound) (n : Nat) : Option (BitVec 4) :=
  if 64 < n then none
  else if n ≤ 8 then some (BitVec.ofNat 4 n)
  else if n ≤ 24 then some (BitVec.ofNat 4 (8 + roundedDiv round (n - 8) 4))
  else some (BitVec.ofNat 4 (11 + roundedDiv round n 16))

/-- DLC.B2C (`42_can_dlc.md` R162). -/
def execDlcB2c (n : Byte) (s : State) : Host.Outcome State Fault Refusal :=
  match bytesToDlc s.cfg.dlcRound n.toNat with
  | none => .next (s.raise .invalidArgument .code)
  | some code => .next (s.respond .ok (.code code))

/-- DLC.C2B (`42_can_dlc.md` R163). -/
def execDlcC2b (n : Byte) (s : State) : Host.Outcome State Fault Refusal :=
  if 15 < n.toNat then .next (s.raise .invalidArgument .bytes)
  else .next (s.respond .ok (.bytes (BitVec.ofNat 8 (dlcBytes (n.setWidth 4)))))

/-- `CheckFrame(f)` passes (`42_can_dlc.md` R165); all its failures are `InvalidArgument`. -/
def checkFrame (c : Cfg) (f : Frame) : Bool :=
  if f.options &&& c.optFd = 0 then decide (f.len.toNat ≤ 8) && f.options == 0
  else validLen f.len.toNat

/-- FRM.CHECK (`42_can_dlc.md` R166). -/
def execFrmCheck (frame : Frame) (s : State) : Host.Outcome State Fault Refusal :=
  if checkFrame s.cfg frame then .next (s.respond .ok .none)
  else .next (s.raise .invalidArgument .none)

end Sys2Proof.Machine
end

