-- ==== Sys2Proof/Machine/Codec.lean ====
section
/-! DEFINITION. The CAN-FD frame field codec: `EncodeImage`, `DecodeFrame`, FRM.ENC, FRM.DEC
(`44_can_frame.md` R201 to R208, `30_encoding.md` R90 to R95). -/

namespace Sys2Proof.Machine

/-- One bit at position `pos` of a 32-bit word. -/
def bitAt (b : Bool) (pos : Fin 32) : Word32 := (BitVec.ofBool b).setWidth 32 <<< pos.val

/-- An identifier is inside `EncodeImage`'s domain (`44_can_frame.md` R204). -/
def idInRange (c : Cfg) (id : Word32) : Bool := decide (id.toNat < 2 ^ c.idW.val)

/-- `v[ID_W-1:0]`, zero-extended to 32 bits. -/
def idBits (c : Cfg) (v : Word32) : Word32 := (v.setWidth c.idW.val).setWidth 32

/-- The ID word of a frame (`44_can_frame.md` R201, `30_encoding.md` R92). -/
def encodeId (c : Cfg) (f : Frame) : Word32 :=
  idBits c f.id ||| bitAt (f.type == .remote) c.rtrBit ||| bitAt (f.idMode == .extended) c.ideBit

/-- The PTR word of a DLC (`44_can_frame.md` R201, `30_encoding.md` R93). -/
def encodePtr (c : Cfg) (code : BitVec 4) : Word32 := code.setWidth 32 <<< c.dlcLsb.val

/-- The FDC word of a frame (`44_can_frame.md` R201, `30_encoding.md` R94). -/
def encodeFdc (c : Cfg) (f : Frame) : Word32 :=
  bitAt (f.options &&& c.optEsi != 0) c.esiBit ||| bitAt (f.options &&& c.optBrs != 0) c.brsBit
    ||| bitAt (f.options &&& c.optFd != 0) c.fdfBit

/-- Exactly the first `len` payload bytes are written, the others keep their old value
(`44_can_frame.md` R201). -/
def encodeData (len : Nat) (new old : Vector Byte 64) : Vector Byte 64 :=
  Vector.ofFn fun i => if i.val < len then new[i] else old[i]

/-- `EncodeImage(f, old)` (`44_can_frame.md` R201); `none` is `B2C`'s `InvalidArgument`. -/
def encodeImage (c : Cfg) (f : Frame) (old : Image) : Option Image :=
  (bytesToDlc c.dlcRound f.len.toNat).map fun code =>
    ⟨encodeId c f, encodePtr c code, encodeFdc c f, encodeData f.len.toNat f.data old.data⟩

/-- The payload byte count an image holds (`44_can_frame.md` R202). -/
def decodeLen (c : Cfg) (m : Image) : Nat := dlcBytes (m.ptr.extractLsb' c.dlcLsb.val 4)

/-- The options an image holds (`44_can_frame.md` R202). -/
def decodeOptions (c : Cfg) (m : Image) : BitVec 3 :=
  (if m.fdc.getLsbD c.esiBit.val then c.optEsi else 0)
    ||| (if m.fdc.getLsbD c.brsBit.val then c.optBrs else 0)
    ||| (if m.fdc.getLsbD c.fdfBit.val then c.optFd else 0)

/-- The payload an image holds; a byte at or beyond the length is a free value (`44_can_frame.md`
R202, U7, log 12). -/
def decodeData (draw len : Nat) (data : Vector Byte 64) : Vector Byte 64 :=
  Vector.ofFn fun i => if i.val < len then data[i] else Config.freeValue 8 draw i.val

/-- `DecodeFrame(img)` (`44_can_frame.md` R202); total. -/
def decodeFrame (c : Cfg) (draw : Nat) (m : Image) : Frame where
  id := idBits c m.id
  idMode := if m.id.getLsbD c.ideBit.val then .extended else .standard
  type := if m.id.getLsbD c.rtrBit.val then .remote else .data
  options := decodeOptions c m
  len := BitVec.ofNat 8 (decodeLen c m)
  data := decodeData draw (decodeLen c m) m.data

/-! ### The payload as 32-bit data words -/

/-- Data word `DF[j]` of a payload: `DATA[4*j]` in bits 7:0, `DATA[4*j+3]` in bits 31:24 (`20_memory.md`
R50, `30_encoding.md` R95, log 22). No operation reads a payload at this width. -/
def dataWord (data : Vector Byte 64) (j : Fin 16) : Word32 :=
  data[4 * j.val + 3] ++ data[4 * j.val + 2] ++ data[4 * j.val + 1] ++ data[4 * j.val]

/-- The sixteen data words `DF[0..15]` of a payload (`20_memory.md` R50). -/
def dataWords (data : Vector Byte 64) : Vector Word32 16 := Vector.ofFn (dataWord data)

/-- The payload that sixteen data words hold: `DATA[i] = DF[i div 4][8*(i mod 4)+7 : 8*(i mod 4)]`
(`20_memory.md` R50). -/
def dataOfWords (words : Vector Word32 16) : Vector Byte 64 :=
  Vector.ofFn fun i => words[i.val / 4].extractLsb' (8 * (i.val % 4)) 8

/-! ### The operations -/

/-- FRM.ENC (`44_can_frame.md` R205). -/
def execFrmEnc (frame : Frame) (s : State) : Host.Outcome State Fault Refusal :=
  if idInRange s.cfg frame.id then
    match encodeImage s.cfg frame zeroImage with
    | none => .next (s.raise .invalidArgument .image)
    | some img => .next (s.respond .ok (.image img))
  else .refused .idOutOfRange

/-- FRM.DEC (`44_can_frame.md` R208). -/
def execFrmDec (img : Image) (s : State) : Host.Outcome State Fault Refusal :=
  .next (s.respond .ok (.frame (decodeFrame s.cfg s.draws img)))

end Sys2Proof.Machine
end

