-- ==== Sys2Proof/Machine/FrameIo.lean ====
section
/-! DEFINITION. Frame I/O: CAN.WRITE and CAN.READ (`44_can_frame.md` R212 to R222). -/

namespace Sys2Proof.Machine

/-! ### The CAN buffer window -/

/-- `TXMB[h] <- b`. -/
def State.setTxmb (s : State) (h : Nat) (b : TxBuffer) : State := { s with txmb := s.txmb.set h b }

/-- `RXMB[h] <- b`. -/
def State.setRxmb (s : State) (h : Nat) (b : RxBuffer) : State := { s with rxmb := s.rxmb.set h b }

/-- `RXFIFO[k].q <- q`. -/
def State.setRxFifo (s : State) (k : Nat) (q : List Image) : State :=
  { s with rxfifo := s.rxfifo.set k q }

/-- `CFIFO[k] <- f`. -/
def State.setCFifo (s : State) (k : Nat) (f : CommonFifo) : State :=
  { s with cfifo := s.cfifo.set k f }

/-! ### CAN.WRITE -/

/-- A queue holds `FIFO_DEPTH` images (`44_can_frame.md` R216). -/
def queueFull (c : Cfg) (q : List Image) : Bool :=
  match c.fifoDepth with
  | none => false
  | some depth => decide (depth ≤ q.length)

/-- The checks on the frame, then the placing of its image: what CAN.WRITE does once the buffer is
found and not busy (`44_can_frame.md` R212, R213). -/
def placeFrame (frame : Frame) (old : Image) (place : Image → Progress) (s : State) : Progress :=
  if checkFrame s.cfg frame then
    if idInRange s.cfg frame.id then
      match encodeImage s.cfg frame old with
      | none => .raised .invalidArgument s
      | some img => place img
    else .refused .idOutOfRange
  else .raised .invalidArgument s

/-- The message-buffer half of CAN.WRITE: busy, frame, image, then the transmit request
(`44_can_frame.md` R212, R215). -/
def writeMb (h : Nat) (frame : Frame) (s : State) : Progress :=
  match s.txmb[h]? with
  | none => .fault .bufferAbsent
  | some b =>
    if transmitInProgress b then .raised .canTransmitNotReady s
    else placeFrame frame b.img (fun img => .ok (s.setTxmb h (requestTransmit img))) s

/-- The append that advances a common FIFO's write pointer: capacity first (`44_can_frame.md` R212,
R216). -/
def appendCFifo (h : Nat) (img : Image) (s : State) : Progress :=
  match s.cfifo[h]? with
  | none => .fault .bufferAbsent
  | some f =>
    if queueFull s.cfg f.txq then .refused .fifoFull
    else .ok (s.setCFifo h { f with txq := f.txq ++ [img] })

/-- The common-FIFO half of CAN.WRITE: the frame and its identifier, and only then the FIFO
(`44_can_frame.md` R212, R216). -/
def writeCFifo (h : Nat) (frame : Frame) (s : State) : Progress :=
  placeFrame frame zeroImage (fun img => appendCFifo h img s) s

/-- CAN.WRITE as a step (`44_can_frame.md` R212). -/
def writeStep (channel : Byte) (index : Word32) (frame : Frame) (s : State) : Progress :=
  if s.cfg.nChannels ≤ channel.toNat then .refused .channelOutOfRange
  else
    match classify s.cfg index.toNat with
    | none => .raised .invalidArgument s
    | some (.rxFifo, _) => .raised .invalidArgument s
    | some (.mb, k) => writeMb (hwIndex s.cfg .mb k channel.toNat) frame s
    | some (.cFifo, k) => writeCFifo (hwIndex s.cfg .cFifo k channel.toNat) frame s

/-- CAN.WRITE (`44_can_frame.md` R212). -/
def execCanWrite (channel : Byte) (index : Word32) (frame : Frame) (s : State) :
    Host.Outcome State Fault Refusal :=
  (writeStep channel index frame s).answer

/-! ### CAN.READ -/

/-- The frame of `img` is the result, and the state is `t` but for the answer: the decode comes before
the clear or the advance (`44_can_frame.md` R220). -/
def answerFrame (img : Image) (t : State) : Host.Outcome State Fault Refusal :=
  .next (t.respond .ok (.frame (decodeFrame t.cfg t.draws img)))

/-- Reading receive message buffer `h` (`44_can_frame.md` R220). -/
def readMb (h : Nat) (s : State) : Host.Outcome State Fault Refusal :=
  match s.rxmb[h]? with
  | none => .fault .bufferAbsent
  | some b =>
    if mbNotEmpty b then answerFrame b.img (s.setRxmb h (clearNewData b))
    else .next (s.raise .bufferEmpty .frame)

/-- Reading RX FIFO `h`; "not empty" is `fifoNotEmpty` (`44_can_frame.md` R220). -/
def readRxFifo (h : Nat) (s : State) : Host.Outcome State Fault Refusal :=
  match s.rxfifo[h]? with
  | none => .fault .bufferAbsent
  | some [] => .next (s.raise .bufferEmpty .frame)
  | some (img :: q) => answerFrame img (s.setRxFifo h q)

/-- Reading common FIFO `h` (`44_can_frame.md` R220). -/
def readCFifo (h : Nat) (s : State) : Host.Outcome State Fault Refusal :=
  match s.cfifo[h]? with
  | none => .fault .bufferAbsent
  | some ⟨_, []⟩ => .next (s.raise .bufferEmpty .frame)
  | some ⟨txq, img :: rxq⟩ => answerFrame img (s.setCFifo h ⟨txq, rxq⟩)

/-- CAN.READ (`44_can_frame.md` R220). -/
def execCanRead (channel : Byte) (index : Word32) (s : State) :
    Host.Outcome State Fault Refusal :=
  if s.cfg.nChannels ≤ channel.toNat then .refused .channelOutOfRange
  else
    match classify s.cfg index.toNat with
    | none => .next (s.raise .invalidArgument .frame)
    | some (.mb, k) => readMb (hwIndex s.cfg .mb k channel.toNat) s
    | some (.rxFifo, k) => readRxFifo (hwIndex s.cfg .rxFifo k channel.toNat) s
    | some (.cFifo, k) => readCFifo (hwIndex s.cfg .cFifo k channel.toNat) s

end Sys2Proof.Machine
end

