-- ==== Sys2Proof/Machine/Index.lean ====
section
/-! DEFINITION. The FIFO/buffer index calculator (IDX family, `43_can_index.md` R180 to R188). -/

namespace Sys2Proof.Machine

/-- The hardware index as the 32-bit result field; where it does not fit the spec states no value, and
it is free (log 13). -/
def hwIndexField (draw h : Nat) : Word32 :=
  if h < 2 ^ 32 then BitVec.ofNat 32 h else Config.freeValue 32 draw 0

/-- The result fields `cls`, `k`, `h` of a classified index (`43_can_index.md` R186, R187). -/
def indexResult (s : State) (channel : Byte) (cls : BufferClass) (k : Nat) : Result :=
  .index (classCode cls) (BitVec.ofNat 32 k)
    (hwIndexField s.draws (hwIndex s.cfg cls k channel.toNat))

/-- The two IDX operations, over what `write` or `read` classifies the index into. -/
def answerIndex (channel : Byte) (found : Option (BufferClass × Nat)) (s : State) :
    Host.Outcome State Fault Refusal :=
  if s.cfg.nChannels ≤ channel.toNat then .refused .channelOutOfRange
  else
    match found with
    | none => .next (s.raise .invalidArgument .index)
    | some (cls, k) => .next (s.respond .ok (indexResult s channel cls k))

/-- IDX.CLASSW (`43_can_index.md` R186). -/
def execIdxClassW (channel : Byte) (index : Word32) (s : State) :
    Host.Outcome State Fault Refusal :=
  answerIndex channel (classifyWrite s.cfg index.toNat) s

/-- IDX.CLASSR (`43_can_index.md` R187). -/
def execIdxClassR (channel : Byte) (index : Word32) (s : State) :
    Host.Outcome State Fault Refusal :=
  answerIndex channel (classify s.cfg index.toNat) s

end Sys2Proof.Machine
end

