-- ==== Sys2Proof/Machine/Translate.lean ====
section
/-! DEFINITION. The address translator (AT family, `41_pt_fill.md` R148, R149), and the checking
functions over the tables that are no operation of the block (`20_memory.md` R65, R66). -/

namespace Sys2Proof.Machine

/-- AT.V2P (`41_pt_fill.md` R148): the identity, the tables are not consulted. -/
def execAtV2p (addr : Word64) (s : State) : Host.Outcome State Fault Refusal :=
  .next (s.respond .ok (.addr addr))

/-- AT.P2V (`41_pt_fill.md` R149). -/
def execAtP2v (addr : Word64) (s : State) : Host.Outcome State Fault Refusal :=
  .next (s.respond .ok (.addr addr))

/-- The three forms a slot holds (`10_state.md` R29, `20_memory.md` R64). -/
inductive DescForm where
  | fault
  | link
  | block
deriving DecidableEq, Repr

/-- The number of a level. -/
def levelNumber : Level → Nat
  | .l1 => 1
  | .l2 => 2
  | .l3 => 3

/-- `d`, in a table of level `l`, has the bits of a table-link descriptor (`20_memory.md` R65). -/
def hasLinkTag (c : Cfg) (l : Level) (d : Word64) : Bool :=
  decide (levelNumber l < c.maxLevel.val) && d.extractLsb' 0 2 == c.tagTable

/-- `d`, in a table of level `l`, has the bits of a block descriptor (`20_memory.md` R65). -/
def hasBlockTag (c : Cfg) (l : Level) (d : Word64) : Bool :=
  d.extractLsb' 0 2 == c.tagBlock.forLevel l

/-- `d` is reserved in a table of level `l`: bit 0 is set and it has neither tag. R65 states one case, 0b01
at level 3 with the default tags; taking every such value for reserved is DESIGN CHOICE (log 33). -/
def isReservedDesc (c : Cfg) (l : Level) (d : Word64) : Bool :=
  d.getLsbD 0 && !hasLinkTag c l d && !hasBlockTag c l d

/-- Reading a descriptor's form in a table of a level (`20_memory.md` R65); a reserved value is treated as
fault. R65 gives no precedence where `TAG_TABLE = TAG_BLOCK[L]` below `MAX_LEVEL`, which R7 allows: link,
the form R65 names first, is answered (DESIGN CHOICE, log 33), while `walk` tests block first, as R66 does. -/
def formOf (c : Cfg) (l : Level) (d : Word64) : DescForm :=
  if d.getLsbD 0 = false ∨ isReservedDesc c l d = true then .fault
  else if hasLinkTag c l d then .link
  else .block

/-- What `Walk` answers (`20_memory.md` R66). -/
inductive WalkResult where
  | fault
  | mapped (pa attrs : Word64)
deriving DecidableEq, Repr

/-- The mapping a block or page descriptor `d` of a level gives `va`, whose low `n` bits are the
offset (`20_memory.md` R66). -/
def mappedBy (c : Cfg) (l : Level) (n : Nat) (d va : Word64) : WalkResult :=
  .mapped ((d &&& c.oaMask.forLevel l) ||| (va.setWidth n).setWidth 64) (d &&& c.attrMask)

/-- The checking function `Walk(va)`, for `va` below 2^32 (`20_memory.md` R66). -/
def walk (s : State) (va : Word64) : WalkResult :=
  let c := s.cfg
  let d1 := memRead s (slotAddr c.l1Base (va.extractLsb' 30 2).toNat)
  if d1.getLsbD 0 = false then .fault
  else if d1.extractLsb' 0 2 = c.tagBlock.l1 then mappedBy c .l1 30 d1 va
  else
    let d2 := memRead s (slotAddr (d1 &&& c.nextMask) (va.extractLsb' 21 9).toNat)
    if d2.getLsbD 0 = false then .fault
    else if d2.extractLsb' 0 2 = c.tagBlock.l2 then mappedBy c .l2 21 d2 va
    else
      let d3 := memRead s (slotAddr (d2 &&& c.nextMask) (va.extractLsb' 12 9).toNat)
      if d3.extractLsb' 0 2 = c.tagBlock.l3 then mappedBy c .l3 12 d3 va
      else .fault

end Sys2Proof.Machine
end

