-- ==== Sys2Proof/Machine/Dispatch.lean ====
section
/-! DEFINITION. One arm per operation, each one direct call of its meaning. An operation runs under any
`s.cfg`; under one that breaks `00_scope.md` R7 the spec's rules have no meaning, and that the same
meanings run is DESIGN CHOICE (log 32). -/

namespace Sys2Proof.Machine

def exec (i : Instr) (s : State) : Host.Outcome State Fault Refusal :=
  match i with
  | .pdFault => Sys2Proof.Machine.execPdFault s
  | .pdLink addr => Sys2Proof.Machine.execPdLink addr s
  | .pdBlock level addr attr => Sys2Proof.Machine.execPdBlock level addr attr s
  | .pdWrite entryAddress value => Sys2Proof.Machine.execPdWrite entryAddress value s
  | .ptAlloc => Sys2Proof.Machine.execPtAlloc s
  | .ptLink level basePtr baseVa va child => Sys2Proof.Machine.execPtLink level basePtr baseVa va child s
  | .ptMap level basePtr baseVa va pa size attr => Sys2Proof.Machine.execPtMap level basePtr baseVa va pa size attr s
  | .ptFault level basePtr baseVa va pa size => Sys2Proof.Machine.execPtFault level basePtr baseVa va pa size s
  | .ptBuild count regions => Sys2Proof.Machine.execPtBuild count regions s
  | .ptActivate => Sys2Proof.Machine.execPtActivate s
  | .atV2p addr => Sys2Proof.Machine.execAtV2p addr s
  | .atP2v addr => Sys2Proof.Machine.execAtP2v addr s
  | .dlcB2c n => Sys2Proof.Machine.execDlcB2c n s
  | .dlcC2b n => Sys2Proof.Machine.execDlcC2b n s
  | .frmCheck frame => Sys2Proof.Machine.execFrmCheck frame s
  | .idxClassW channel index => Sys2Proof.Machine.execIdxClassW channel index s
  | .idxClassR channel index => Sys2Proof.Machine.execIdxClassR channel index s
  | .frmEnc frame => Sys2Proof.Machine.execFrmEnc frame s
  | .frmDec img => Sys2Proof.Machine.execFrmDec img s
  | .canWrite channel index frame => Sys2Proof.Machine.execCanWrite channel index frame s
  | .canRead channel index => Sys2Proof.Machine.execCanRead channel index s

end Sys2Proof.Machine
end

