-- ==== Sys2Proof/Machine/Environment.lean ====
section
/-! DEFINITION. The moves of the agents other than the block's requester: the CAN peripheral
(`10_state.md` R39), the table walker (R37), and the requester's own barrier
(`70_reset_and_hazards.md` R281). An input that is none of these moves is refused (log 18). -/

namespace Sys2Proof.Machine

/-! ### The CAN peripheral -/

/-- Move (a): clears `TXMB[h].busy` of a buffer whose `busy` is set. -/
def peripheralTxDone (h : Nat) (s : State) : Host.Outcome State Fault Refusal :=
  match s.txmb[h]? with
  | none => .refused .environmentMove
  | some b =>
    if transmitInProgress b then .next (s.setTxmb h (clearBusy b)) else .refused .environmentMove

/-- Move (b): writes an image into `RXMB[h]` and sets `newdata`, whatever `newdata` was
(`70_reset_and_hazards.md` R284). -/
def peripheralDeliverMb (h : Nat) (img : Image) (s : State) : Host.Outcome State Fault Refusal :=
  match s.rxmb[h]? with
  | none => .refused .environmentMove
  | some _ => .next (s.setRxmb h (deliver img))

/-- Move (c): appends an image to `RXFIFO[k].q`. -/
def peripheralDeliverRxFifo (k : Nat) (img : Image) (s : State) :
    Host.Outcome State Fault Refusal :=
  match s.rxfifo[k]? with
  | none => .refused .environmentMove
  | some q => .next (s.setRxFifo k (q ++ [img]))

/-- Move (c): appends an image to `CFIFO[k].rxq`. -/
def peripheralDeliverCFifo (k : Nat) (img : Image) (s : State) :
    Host.Outcome State Fault Refusal :=
  match s.cfifo[k]? with
  | none => .refused .environmentMove
  | some f => .next (s.setCFifo k { f with rxq := f.rxq ++ [img] })

/-- Move (d): removes the head of `CFIFO[k].txq`. -/
def peripheralCFifoSent (k : Nat) (s : State) : Host.Outcome State Fault Refusal :=
  match s.cfifo[k]? with
  | none => .refused .environmentMove
  | some ⟨[], _⟩ => .refused .environmentMove
  | some ⟨_ :: txq, rxq⟩ => .next (s.setCFifo k ⟨txq, rxq⟩)

/-! ### The table walker -/

/-- The values a walker read of the slot at `a` may give: what the slot holds, or what it held before
any store of `stores` to it (`20_memory.md` R52, R57; always a whole value, log 16). -/
def visibleValues (s : State) (stores : List SlotStore) (a : Word64) : List Word64 :=
  memRead s a :: (stores.filter fun w => w.addr == a).map (·.old)

/-- The walker reads a slot of `TM` with one indivisible 64-bit read (`10_state.md` R37): now, or inside
the last operation. -/
def walkerRead (a : Word64) (within : Bool) (choice : Nat) (s : State) :
    Host.Outcome State Fault Refusal :=
  if a.toNat % 8 = 0 ∧ slotBacked s.cfg a = true then
    match (visibleValues s (if within then s.opWindow else s.unsynced) a)[choice]? with
    | none => .refused .environmentMove
    | some v => .next { s with walkerSees := some v }
  else .refused .environmentMove

/-! ### The requester's barrier -/

/-- The requester performs `Barrier()` itself (`70_reset_and_hazards.md` R281). -/
def requesterBarrier (s : State) : Host.Outcome State Fault Refusal :=
  .next s.barrier

end Sys2Proof.Machine
end

