-- ==== Sys2Proof/Machine/Request.lean ====
section
/-! DEFINITION. Taking a request (`30_encoding.md` R80, R84, R85), and taking one input of any agent. -/

namespace Sys2Proof.Machine

/-- The block takes one request: an operation runs; a reserved `op` is answered `Unsupported` and
changes nothing (`30_encoding.md` R85); bits that are no request have no meaning (log 20). -/
def runRequest (bits : Bits) (s : State) : Host.Outcome State Fault Refusal :=
  match decode bits with
  | .ok i => exec i s.beginOp
  | .error (.reserved _) => .next (s.beginOp.raise .unsupported .none)
  | .error .tooShort => .refused .malformedRequest
  | .error (.wrongLength _) => .refused .malformedRequest

/-- One agent's move. -/
def takeInput (i : Input) (s : State) : Host.Outcome State Fault Refusal :=
  match i with
  | .request bits => runRequest bits s
  | .mmuOpen => execMmuOpen s.rl s.beginOp
  | .requesterBarrier => requesterBarrier s
  | .txDone h => peripheralTxDone h s
  | .deliverMb h img => peripheralDeliverMb h img s
  | .deliverRxFifo k img => peripheralDeliverRxFifo k img s
  | .deliverCFifo k img => peripheralDeliverCFifo k img s
  | .cFifoSent k => peripheralCFifoSent k s
  | .walkerRead a within choice => walkerRead a within choice s

/-- The next input is taken off the list and its move made; with none the block is idle (log 1). -/
def advance (s : State) : Host.Outcome State Fault Refusal :=
  match s.inputs with
  | [] => .next s
  | i :: rest => takeInput i { s with inputs := rest }

/-- The state with one more request presented, before the others. -/
def presentRequest (bits : Bits) (s : State) : State := { s with inputs := .request bits :: s.inputs }

end Sys2Proof.Machine
end

