-- ==== Sys2Proof/Machine/Step.lean ====
section
/-! DEFINITION. One step of the machine: one move of one agent, or idling. -/

namespace Sys2Proof.Machine

/-- One step (`10_state.md` R36 to R39): the next input is taken whole. -/
def step (s : State) : Host.Outcome State Fault Refusal := advance s

/-- The state with the operation of a table word presented as the next request (log 21). -/
def State.withFetchWord (s : State) (nbits w : Nat) : State :=
  presentRequest (tableRequest nbits w) s

end Sys2Proof.Machine
end

