-- ==== Sys2Proof/Machine/Response.lean ====
section
/-! DEFINITION. The response as a bit string: the status code of `60_exceptions.md` R240, then the
result fields of `30_encoding.md` R82, the first field most significant. -/

namespace Sys2Proof.Machine

/-- The numeric code of a status kind (`60_exceptions.md` R240). -/
def statusCode : Status → Byte
  | .ok => 0
  | .invalidArgument => 1
  | .alreadyOpen => 2
  | .notOpen => 3
  | .inUse => 4
  | .channelNotPresent => 5
  | .initFailed => 6
  | .canTransmitNotReady => 7
  | .bufferEmpty => 8
  | .unsupported => 9
  | .invalidMode => 10
  | .timeout => 11

/-- The bits of the result fields (`30_encoding.md` R82). -/
def resultBits : Result → Bits
  | .none => []
  | .desc d => bitsOf d
  | .addr a => bitsOf a
  | .code c => bitsOf c
  | .bytes n => bitsOf n
  | .index cls k h => bitsOf cls ++ (bitsOf k ++ bitsOf h)
  | .image img => img.bits
  | .frame f => f.bits

/-- The response `status[7:0]`, then the result fields (`30_encoding.md` R82). -/
def responseBits (r : Response) : Bits := bitsOf (statusCode r.status) ++ resultBits r.result

/-- Which result fields the response to an operation has (`30_encoding.md` R82). -/
def resultShape : Instr → ResultShape
  | .pdFault => .desc
  | .pdLink _ => .desc
  | .pdBlock _ _ _ => .desc
  | .pdWrite _ _ => .none
  | .ptAlloc => .none
  | .ptLink _ _ _ _ _ => .none
  | .ptMap _ _ _ _ _ _ _ => .none
  | .ptFault _ _ _ _ _ _ => .none
  | .ptBuild _ _ => .none
  | .ptActivate => .none
  | .atV2p _ => .addr
  | .atP2v _ => .addr
  | .dlcB2c _ => .code
  | .dlcC2b _ => .bytes
  | .frmCheck _ => .none
  | .idxClassW _ _ => .index
  | .idxClassR _ _ => .index
  | .frmEnc _ => .image
  | .frmDec _ => .frame
  | .canWrite _ _ _ => .none
  | .canRead _ _ => .frame

/-- The shape of a result. -/
def Result.shape : Result → ResultShape
  | .none => .none
  | .desc _ => .desc
  | .addr _ => .addr
  | .code _ => .code
  | .bytes _ => .bytes
  | .index _ _ _ => .index
  | .image _ => .image
  | .frame _ => .frame

end Sys2Proof.Machine
end

