-- ==== Sys2Proof/Safety.lean ====
section
/-! DEFINITION. What counts as a safe run, and the spec's named premises: duties of the requester and
launch premises that the block does not check (`70_reset_and_hazards.md` R270 to R285). -/

namespace Sys2Proof.Machine

/-- An operation is admitted in a state: it has a next state, it neither faults nor is refused
(`60_exceptions.md` R243). -/
def Admitted (i : Instr) (s : State) : Prop := ∃ t, exec i s = .next t

/-- A run of `n` steps that neither faults nor is refused. -/
def SafeFor (n : Nat) (s : State) : Prop :=
  ∃ t, Host.Core.run ⟨State, Fault, Refusal, step, State.reset⟩ n s = .next t

/-- The launch premise `TablesZeroed` (`70_reset_and_hazards.md` R270): every slot of the level-1 table
and of every configured segment reads 0. -/
def TablesZeroed (s : State) : Prop :=
  (∀ i < 4, memRead s (slotAddr s.cfg.l1Base i) = 0)
    ∧ ∀ g ∈ s.cfg.segs, ∀ i < 512, memRead s (slotAddr g.tablePtr i) = 0

/-- The launch premise `CanIdle` (`70_reset_and_hazards.md` R273). -/
def CanIdle (s : State) : Prop :=
  (∀ b ∈ s.txmb, b.busy = false) ∧ (∀ b ∈ s.rxmb, b.newdata = false)
    ∧ (∀ q ∈ s.rxfifo, q = []) ∧ ∀ f ∈ s.cfifo, f.txq = [] ∧ f.rxq = []

/-- A region that the requester may list (`70_reset_and_hazards.md` R278): its fields are multiples of
2 MiB and it lies inside one 1 GiB segment. -/
def regionOk (r : Region) : Bool :=
  allAligned .l2 [r.virtualAddress, r.physicalAddress, r.size]
    && decide (r.virtualAddress.toNat % 2 ^ 30 + r.size.toNat ≤ 2 ^ 30)

/-- Regions in strictly increasing virtual-address order with no gap and no overlap, up to the sentinel,
which ends the list (`70_reset_and_hazards.md` R278). -/
def regionListOk : List Region → Bool
  | [] => false
  | [r] => isSentinel r
  | r :: r' :: rs =>
    !isSentinel r && regionOk r
      && (isSentinel r'
        || (decide (0 < r.size.toNat)
          && r.virtualAddress.toNat + r.size.toNat == r'.virtualAddress.toNat))
      && regionListOk (r' :: rs)

/-- The address of slot `i` of region `r` in the table of its segment `g` (`20_memory.md` R56). -/
def regionSlot (g : Segment) (r : Region) (i : Nat) : Word64 :=
  slotAddr g.tablePtr (slotOf .l2 g.baseVa r.virtualAddress + i)

/-- The launch memory map backs every table, and no table passes the end of the address space. -/
def tablesBacked (c : Cfg) : Bool :=
  c.tables.all fun t => decide (t.1 + t.2 ≤ 2 ^ 64)
    && c.tmMap.any fun m => decide (m.base ≤ t.1) && decide (t.1 + t.2 ≤ m.base + m.size)

/-- A region PT.BUILD can program: no sentinel, 2 MiB aligned, its slots inside the table of the segment
it is assigned to (`41_pt_fill.md` R134, R135, R139). -/
def regionFits (c : Cfg) (r : Region) : Bool :=
  !isSentinel r && allAligned .l2 [r.virtualAddress, r.physicalAddress, r.size]
    && match selectSegment r.virtualAddress c.segs with
      | none => false
      | some g => decide (slotOf .l2 g.baseVa r.virtualAddress + slotCount .l2 r.size ≤ 512)

/-- What PT.BUILD needs to program all of `rs`: a configuration as R7 asks, tables that exist, and
regions that fit. -/
def buildReady (c : Cfg) (rs : List Region) : Bool :=
  c.wf && decide (2 ≤ c.maxLevel.val) && decide (c.tableAlign % 8 = 0) && tablesBacked c
    && rs.all (regionFits c)

/-- The banks of the CAN buffer window have the sizes of `10_state.md` R31 to R34. -/
def banksOk (s : State) : Prop :=
  s.txmb.length = bankSize s.cfg .mb ∧ s.rxmb.length = bankSize s.cfg .mb
    ∧ s.rxfifo.length = bankSize s.cfg .rxFifo ∧ s.cfifo.length = bankSize s.cfg .cFifo

/-- The invariant of the machine: `TM` keeps its canonical form; the banks keep their sizes; no transmit
queue passes `FIFO_DEPTH` (`44_can_frame.md` R216); what the walker may not yet see is a recent part of
what the last operation's window holds; and every recorded store went to an aligned, backed slot. It does
not ask for `Cfg.wf`: the machine runs under any `CFG`, also one that breaks R7 (DESIGN CHOICE, log 32),
and no step changes it. -/
def Inv (s : State) : Prop :=
  s.tm.wf = true ∧ banksOk s
    ∧ (∀ f ∈ s.cfifo, ∀ d, s.cfg.fifoDepth = some d → f.txq.length ≤ d)
    ∧ s.unsynced <:+ s.opWindow
    ∧ ∀ w ∈ s.opWindow, w.addr.toNat % 8 = 0 ∧ slotBacked s.cfg w.addr = true

end Sys2Proof.Machine
end

