-- ==== Sys2Proof/Certificates/Slice0/Obligations.lean ====
section
/-! DEFINITION. The statements for the provers. A next state is written out in full wherever the rule
gives it in full, so that the equation is also the operation's frame: every field not named is unchanged.
`draws` counts responses and is the model's own (log 10); no statement rests on its value. -/

namespace Sys2Proof.Claims

open Sys2Proof.Machine

/-- `s` after a response, and nothing else changed. -/
def answered (s : State) (e : Status) (r : Result) : State :=
  { s with rsp := some ⟨e, r⟩, draws := s.draws + 1 }

/-- The operation answers the error `e`; the result fields of `shape` have no stated value, and nothing
else changes. -/
def FailsWith (i : Instr) (s : State) (e : Status) (shape : ResultShape) : Prop :=
  ∃ r : Result, r.shape = shape ∧ exec i s = .next (answered s e r)

/-- A fill of the slots `first` to `first + count - 1` of the table at `basePtr`, slot `first + i` with
`desc i`, in ascending order, one barrier at the end, and nothing else: the answer is `OK`. -/
def Fills (i : Instr) (s : State) (basePtr : Word64) (first count : Nat) (desc : Nat → Word64) :
    Prop :=
  ∃ t, exec i s = .next t
    ∧ (∀ n < count, memRead t (slotAddr basePtr (first + n)) = desc n)
    ∧ (∀ x, (∀ n < count, x < (slotAddr basePtr (first + n)).toNat
        ∨ (slotAddr basePtr (first + n)).toNat + 8 ≤ x) → t.tm.byte x = s.tm.byte x)
    ∧ t.opWindow.map (·.addr) = s.opWindow.map (·.addr)
        ++ (List.range count).map (fun n => slotAddr basePtr (first + n))
    ∧ t = { answered s .ok .none with tm := t.tm, unsynced := [], opWindow := t.opWindow }

/-- The slots `first` to `first + count - 1` of the table at `basePtr` can be stored to. -/
def SlotsWritable (c : Cfg) (basePtr : Word64) (first count : Nat) : Prop :=
  ∀ n < count, (slotAddr basePtr (first + n)).toNat % 8 = 0
    ∧ slotBacked c (slotAddr basePtr (first + n)) = true

/-- `img` is frame `f` with DLC `code` written over `old` (`44_can_frame.md` R201). -/
def IsImageOf (c : Cfg) (f : Frame) (code : BitVec 4) (old img : Image) : Prop :=
  img.id = (f.id.setWidth c.idW.val).setWidth 32
      ||| (if f.type = .remote then 1#32 <<< c.rtrBit.val else 0)
      ||| (if f.idMode = .extended then 1#32 <<< c.ideBit.val else 0)
    ∧ img.ptr = code.setWidth 32 <<< c.dlcLsb.val
    ∧ img.fdc = (if f.options &&& c.optEsi ≠ 0 then 1#32 <<< c.esiBit.val else 0)
      ||| (if f.options &&& c.optBrs ≠ 0 then 1#32 <<< c.brsBit.val else 0)
      ||| (if f.options &&& c.optFd ≠ 0 then 1#32 <<< c.fdfBit.val else 0)
    ∧ ∀ i : Fin 64, img.data[i] = if i.val < f.len.toNat then f.data[i] else old.data[i]

/-- `f` is the frame that `img` holds (`44_can_frame.md` R202); a payload byte at or beyond the length
has no stated value. -/
def IsFrameOf (c : Cfg) (img : Image) (f : Frame) : Prop :=
  f.id = (img.id.setWidth c.idW.val).setWidth 32
    ∧ (f.type = .remote ↔ img.id.getLsbD c.rtrBit.val = true)
    ∧ (f.idMode = .extended ↔ img.id.getLsbD c.ideBit.val = true)
    ∧ f.options = (if img.fdc.getLsbD c.esiBit.val then c.optEsi else 0)
      ||| (if img.fdc.getLsbD c.brsBit.val then c.optBrs else 0)
      ||| (if img.fdc.getLsbD c.fdfBit.val then c.optFd else 0)
    ∧ f.len.toNat = [0, 1, 2, 3, 4, 5, 6, 7, 8, 12, 16, 20, 24, 32, 48, 64].getD
        (img.ptr.extractLsb' c.dlcLsb.val 4).toNat 0
    ∧ ∀ i : Fin 64, i.val < f.len.toNat → f.data[i] = img.data[i]

/-- Two frames agree in every field and in the payload bytes below the length. -/
def SameFrame (f g : Frame) : Prop :=
  f.id = g.id ∧ f.idMode = g.idMode ∧ f.type = g.type ∧ f.options = g.options ∧ f.len = g.len
    ∧ ∀ i : Fin 64, i.val < f.len.toNat → f.data[i] = g.data[i]

/-- The frame shape of `42_can_dlc.md` R165. -/
def GoodFrame (c : Cfg) (f : Frame) : Prop :=
  if f.options &&& c.optFd = 0 then f.len.toNat ≤ 8 ∧ f.options = 0
  else f.len.toNat ∈ [0, 1, 2, 3, 4, 5, 6, 7, 8, 12, 16, 20, 24, 32, 48, 64]

/-- The fields of a frame record, each at its width, in the order of `30_encoding.md` R90. -/
def frameFields (f : Frame) : Bits :=
  fieldBits 32 f.id.toNat ++ (fieldBits 1 (if f.idMode = .extended then 1 else 0)
    ++ (fieldBits 1 (if f.type = .remote then 1 else 0) ++ (fieldBits 3 f.options.toNat
      ++ (fieldBits 8 f.len.toNat ++ f.data.toList.flatMap fun b => fieldBits 8 b.toNat))))

/-- The fields of a buffer image, each at its width, in the order of `30_encoding.md` R91. -/
def imageFields (m : Image) : Bits :=
  fieldBits 32 m.id.toNat ++ (fieldBits 32 m.ptr.toNat ++ (fieldBits 32 m.fdc.toNat
    ++ m.data.toList.flatMap fun b => fieldBits 8 b.toNat))

/-- The fields of a region record, each at its width, in the order of `30_encoding.md` R96. -/
def regionFields (r : Region) : Bits :=
  fieldBits 64 r.virtualAddress.toNat ++ (fieldBits 64 r.physicalAddress.toNat
    ++ (fieldBits 64 r.size.toNat ++ fieldBits 64 r.attr.toNat))

/-- The kinds `60_exceptions.md` R240 lets an operation return. -/
def returnableKinds : Instr → List Status
  | .pdFault => [.ok]
  | .pdLink _ => [.ok]
  | .pdBlock _ _ _ => [.ok, .invalidArgument]
  | .pdWrite _ _ => [.ok]
  | .ptAlloc => [.unsupported]
  | .ptLink _ _ _ _ _ => [.ok, .invalidArgument]
  | .ptMap _ _ _ _ _ _ _ => [.ok, .invalidArgument]
  | .ptFault _ _ _ _ _ _ => [.ok, .invalidArgument]
  | .ptBuild _ _ => [.ok, .invalidArgument]
  | .ptActivate => [.ok]
  | .atV2p _ => [.ok]
  | .atP2v _ => [.ok]
  | .dlcB2c _ => [.ok, .invalidArgument]
  | .dlcC2b _ => [.ok, .invalidArgument]
  | .frmCheck _ => [.ok, .invalidArgument]
  | .idxClassW _ _ => [.ok, .invalidArgument]
  | .idxClassR _ _ => [.ok, .invalidArgument]
  | .frmEnc _ => [.ok, .invalidArgument]
  | .frmDec _ => [.ok]
  | .canWrite _ _ _ => [.ok, .invalidArgument, .canTransmitNotReady]
  | .canRead _ _ => [.ok, .invalidArgument, .bufferEmpty]

/-- The numeric code of a status kind, row by row of the table of `60_exceptions.md` R240. -/
def kindCode : Status → Nat
  | .ok => 0
  | .invalidArgument => 1
  | .alreadyOpen => 2
  | .notOpen => 3
  | .inUse => 4
  | .channelNotPresent => 5
  | .initFailed => 6
  | .canTransmitNotReady => 7
  | .bufferEmpty => 8
  | .unsupported => 9
  | .invalidMode => 10
  | .timeout => 11

/-- The result fields, each at its width, in the order of `30_encoding.md` R82. -/
def resultFields : Result → Bits
  | .none => []
  | .desc d => fieldBits 64 d.toNat
  | .addr a => fieldBits 64 a.toNat
  | .code c => fieldBits 4 c.toNat
  | .bytes n => fieldBits 8 n.toNat
  | .index cls k h => fieldBits 2 cls.toNat ++ (fieldBits 32 k.toNat ++ fieldBits 32 h.toNat)
  | .image img => imageFields img
  | .frame f => frameFields f

/-- The width in bits of the result fields of a shape (`30_encoding.md` R82, R90, R91). -/
def shapeWidth : ResultShape → Nat
  | .none => 0
  | .desc => 64
  | .addr => 64
  | .code => 4
  | .bytes => 8
  | .index => 2 + 32 + 32
  | .image => 608
  | .frame => 557

end Sys2Proof.Claims

open Sys2Proof Sys2Proof.Machine Sys2Proof.Claims

/-! ### The descriptor encoder and writer -/

/-- R111: PD.FAULT has op 0x10 and no operand, and always answers the descriptor 0. -/
def Obligations.PdFaultAnswersZero : Prop :=
  encode .pdFault = fieldBits 8 0x10 ∧ ∀ s, exec .pdFault s = .next (answered s .ok (.desc 0))

/-- R112: PD.LINK has op 0x11 and format A, and answers the address ORed with `TAG_TABLE`. -/
def Obligations.PdLinkOrsTableTag : Prop :=
  ∀ addr s, encode (.pdLink addr) = fieldBits 8 0x11 ++ fieldBits 64 addr.toNat
    ∧ exec (.pdLink addr) s
      = .next (answered s .ok (.desc (addr ||| s.cfg.tagTable.setWidth 64)))

/-- R113: PD.BLOCK has op 0x12 and format B; for a level from 1 to `MAX_LEVEL` it answers address,
attribute and the level's tag ORed; any other level is `InvalidArgument`. -/
def Obligations.PdBlockOrsAddressAttributeAndTag : Prop :=
  ∀ level addr attr s,
    encode (.pdBlock level addr attr)
        = fieldBits 8 0x12 ++ (fieldBits 8 level.toNat ++ (fieldBits 64 addr.toNat
          ++ fieldBits 64 attr.toNat))
      ∧ (∀ l, level.toNat = levelNumber l → levelNumber l ≤ s.cfg.maxLevel.val →
        exec (.pdBlock level addr attr) s
          = .next (answered s .ok (.desc (addr ||| attr
              ||| (s.cfg.tagBlock.forLevel l).setWidth 64))))
      ∧ (level.toNat = 0 ∨ s.cfg.maxLevel.val < level.toNat →
        FailsWith (.pdBlock level addr attr) s .invalidArgument .desc)

/-- R114: PD.WRITE to an aligned, backed address replaces the whole slot, leaves every other byte alone,
performs no barrier and answers `OK`; a misaligned address is refused. The byte order is R50's (log 22); that
the store joins `unsynced` and `opWindow` with the slot's old value is the model's record of what the walker
may still see (R57, R58; the model's choice, log 16). -/
def Obligations.PdWriteReplacesOneSlot : Prop :=
  ∀ (a v : Word64) (s : State),
    encode (.pdWrite a v) = fieldBits 8 0x13 ++ (fieldBits 64 a.toNat ++ fieldBits 64 v.toNat)
      ∧ (a.toNat % 8 ≠ 0 → exec (.pdWrite a v) s = .refused .misalignedSlot)
      ∧ (a.toNat % 8 = 0 → slotBacked s.cfg a = true →
        ∃ t, exec (.pdWrite a v) s = .next t
          ∧ memRead t a = v
          ∧ (∀ i < 8, t.tm.byte (a.toNat + i) = v.extractLsb' (8 * i) 8)
          ∧ (∀ x, x < a.toNat ∨ a.toNat + 8 ≤ x → t.tm.byte x = s.tm.byte x)
          ∧ t = { answered s .ok .none with
                  tm := t.tm
                  unsynced := s.unsynced ++ [⟨a, memRead s a⟩]
                  opWindow := s.opWindow ++ [⟨a, memRead s a⟩] })

/-- The model's choice (log 5, from U4): an aligned store to an address the launch memory map does not back
faults. -/
def Obligations.StoreOutsideMemoryMapFaults : Prop :=
  ∀ (a v : Word64) (s : State), a.toNat % 8 = 0 → slotBacked s.cfg a = false →
    exec (.pdWrite a v) s = .fault .unbackedSlot

/-- The read-back property of R116, under R113's duties on the operands (the attribute clear in bits 47:12
and 1:0) and the default masks of R6. -/
def Obligations.BlockDescriptorReadsBack : Prop :=
  ∀ (level : Byte) (l : Level) (addr attr : Word64) (s : State),
    level.toNat = levelNumber l → levelNumber l ≤ s.cfg.maxLevel.val →
    s.cfg.oaMask = Cfg.launch.oaMask → s.cfg.attrMask = Cfg.launch.attrMask →
    addr.toNat % strideOf l = 0 → addr.toNat < 2 ^ 48 → attr &&& 0x0000FFFFFFFFF003 = 0 →
    ∃ d, exec (.pdBlock level addr attr) s = .next (answered s .ok (.desc d))
      ∧ d &&& s.cfg.oaMask.forLevel l = addr ∧ d &&& s.cfg.attrMask = attr
      ∧ d.extractLsb' 0 2 = s.cfg.tagBlock.forLevel l

/-- R116 as it is written: the attribute is only asked to be clear in `OA_MASK[level] | 0x3`. At level 1
and 2 that leaves attribute bits from 12 up to the output address, which `ATTR_MASK` drops, so this is
expected to FAIL (NOTES.md). -/
def Obligations.BlockDescriptorReadsBackAsWritten : Prop :=
  ∀ (level : Byte) (l : Level) (addr attr : Word64) (s : State),
    level.toNat = levelNumber l → levelNumber l ≤ s.cfg.maxLevel.val →
    s.cfg.oaMask = Cfg.launch.oaMask → s.cfg.attrMask = Cfg.launch.attrMask →
    addr.toNat % strideOf l = 0 → addr.toNat < 2 ^ 48 →
    attr &&& (s.cfg.oaMask.forLevel l ||| 0x3) = 0 →
    ∃ d, exec (.pdBlock level addr attr) s = .next (answered s .ok (.desc d))
      ∧ d &&& s.cfg.oaMask.forLevel l = addr ∧ d &&& s.cfg.attrMask = attr
      ∧ d.extractLsb' 0 2 = s.cfg.tagBlock.forLevel l

/-- R115: the fault descriptor is 0, a link and a block never are, and where the tags differ a link and a
block with operands clear in bits 1:0 differ there. -/
def Obligations.DescriptorFormsAreDistinct : Prop :=
  ∀ s : State, s.cfg.tagsWf = true →
    exec .pdFault s = .next (answered s .ok (.desc 0))
      ∧ (∀ addr, ∃ d, exec (.pdLink addr) s = .next (answered s .ok (.desc d)) ∧ d ≠ 0)
      ∧ (∀ level l addr attr, level.toNat = levelNumber l → levelNumber l ≤ s.cfg.maxLevel.val →
        ∃ d, exec (.pdBlock level addr attr) s = .next (answered s .ok (.desc d)) ∧ d ≠ 0)
      ∧ (∀ level l child addr attr, level.toNat = levelNumber l →
        levelNumber l ≤ s.cfg.maxLevel.val → s.cfg.tagTable ≠ s.cfg.tagBlock.forLevel l →
        child.extractLsb' 0 2 = 0 → addr.extractLsb' 0 2 = 0 → attr.extractLsb' 0 2 = 0 →
        ∃ dl db, exec (.pdLink child) s = .next (answered s .ok (.desc dl))
          ∧ exec (.pdBlock level addr attr) s = .next (answered s .ok (.desc db))
          ∧ dl.extractLsb' 0 2 ≠ db.extractLsb' 0 2)

/-! ### The table-fill sequencer -/

/-- R131: PT.ALLOC has op 0x20 and no operand, and always answers `Unsupported`. -/
def Obligations.PtAllocAnswersUnsupported : Prop :=
  encode .ptAlloc = fieldBits 8 0x20
    ∧ ∀ s, exec .ptAlloc s = .next (answered s .unsupported .none)

/-- R133 with R130, R134, R135: PT.LINK's checks in their order, and one link descriptor stored in the slot
that holds `va`, then one barrier. The store goes to an aligned, backed slot address (R114, U4). -/
def Obligations.PtLinkWritesOneLink : Prop :=
  ∀ (level : Byte) (basePtr baseVa va child : Word64) (s : State),
    (level.toNat = 0 ∨ s.cfg.maxLevel.val - 1 < level.toNat ∨ va.toNat < baseVa.toNat →
        exec (.ptLink level basePtr baseVa va child) s
          = .next (answered s .invalidArgument .none))
      ∧ ∀ l, level.toNat = levelNumber l → levelNumber l ≤ s.cfg.maxLevel.val - 1 →
        baseVa.toNat ≤ va.toNat →
        (va.toNat % strideOf l ≠ 0 →
          exec (.ptLink level basePtr baseVa va child) s
            = if s.cfg.paramCheck then .next (answered s .invalidArgument .none)
              else .refused .misalignedWithoutCheck)
          ∧ (va.toNat % strideOf l = 0 → entriesOf s.cfg l ≤ slotOf l baseVa va →
            exec (.ptLink level basePtr baseVa va child) s = .refused .slotOutOfTable)
          ∧ (va.toNat % strideOf l = 0 → slotOf l baseVa va < entriesOf s.cfg l →
            SlotsWritable s.cfg basePtr (slotOf l baseVa va) 1 →
            Fills (.ptLink level basePtr baseVa va child) s basePtr (slotOf l baseVa va) 1
              fun _ => child ||| s.cfg.tagTable.setWidth 64)

/-- R136 with R130, R134, R135: PT.MAP's checks in their order, and `count` block descriptors stored in
ascending slots, the physical address advancing by the stride modulo 2^64, then one barrier. A level-3
table of more than 2^61 entries would pass the 64-bit address space. -/
def Obligations.PtMapFillsBlocks : Prop :=
  ∀ (level : Byte) (basePtr baseVa va pa size attr : Word64) (s : State),
    (level.toNat = 0 ∨ s.cfg.maxLevel.val < level.toNat ∨ va.toNat < baseVa.toNat →
        exec (.ptMap level basePtr baseVa va pa size attr) s
          = .next (answered s .invalidArgument .none))
      ∧ ∀ l, level.toNat = levelNumber l → levelNumber l ≤ s.cfg.maxLevel.val →
        baseVa.toNat ≤ va.toNat →
        ((va.toNat % strideOf l ≠ 0 ∨ pa.toNat % strideOf l ≠ 0 ∨ size.toNat % strideOf l ≠ 0) →
          exec (.ptMap level basePtr baseVa va pa size attr) s
            = if s.cfg.paramCheck then .next (answered s .invalidArgument .none)
              else .refused .misalignedWithoutCheck)
          ∧ (va.toNat % strideOf l = 0 → pa.toNat % strideOf l = 0 → size.toNat % strideOf l = 0 →
            entriesOf s.cfg l < slotOf l baseVa va + slotCount l size →
            exec (.ptMap level basePtr baseVa va pa size attr) s = .refused .slotOutOfTable)
          ∧ (va.toNat % strideOf l = 0 → pa.toNat % strideOf l = 0 → size.toNat % strideOf l = 0 →
            slotOf l baseVa va + slotCount l size ≤ entriesOf s.cfg l → s.cfg.entries3 ≤ 2 ^ 61 →
            SlotsWritable s.cfg basePtr (slotOf l baseVa va) (slotCount l size) →
            Fills (.ptMap level basePtr baseVa va pa size attr) s basePtr (slotOf l baseVa va)
              (slotCount l size) fun n =>
                (pa + BitVec.ofNat 64 (n * strideOf l)) ||| attr
                  ||| (s.cfg.tagBlock.forLevel l).setWidth 64)

/-- R138 with R130, R134, R135: PT.FAULT makes PT.MAP's checks, `pa` included, and stores `count` fault
descriptors. -/
def Obligations.PtFaultFillsZeroes : Prop :=
  ∀ (level : Byte) (basePtr baseVa va pa size : Word64) (s : State),
    (level.toNat = 0 ∨ s.cfg.maxLevel.val < level.toNat ∨ va.toNat < baseVa.toNat →
        exec (.ptFault level basePtr baseVa va pa size) s
          = .next (answered s .invalidArgument .none))
      ∧ ∀ l, level.toNat = levelNumber l → levelNumber l ≤ s.cfg.maxLevel.val →
        baseVa.toNat ≤ va.toNat →
        ((va.toNat % strideOf l ≠ 0 ∨ pa.toNat % strideOf l ≠ 0 ∨ size.toNat % strideOf l ≠ 0) →
          exec (.ptFault level basePtr baseVa va pa size) s
            = if s.cfg.paramCheck then .next (answered s .invalidArgument .none)
              else .refused .misalignedWithoutCheck)
          ∧ (va.toNat % strideOf l = 0 → pa.toNat % strideOf l = 0 → size.toNat % strideOf l = 0 →
            entriesOf s.cfg l < slotOf l baseVa va + slotCount l size →
            exec (.ptFault level basePtr baseVa va pa size) s = .refused .slotOutOfTable)
          ∧ (va.toNat % strideOf l = 0 → pa.toNat % strideOf l = 0 → size.toNat % strideOf l = 0 →
            slotOf l baseVa va + slotCount l size ≤ entriesOf s.cfg l → s.cfg.entries3 ≤ 2 ^ 61 →
            SlotsWritable s.cfg basePtr (slotOf l baseVa va) (slotCount l size) →
            Fills (.ptFault level basePtr baseVa va pa size) s basePtr (slotOf l baseVa va)
              (slotCount l size) fun _ => 0)

/-- R56: a slot number is the integer quotient by the stride, which is `va[31:30]` in the level-1 table and
`va[29:21]` in the segment of the 1 GiB slot that contains `va`; its address is `base + 8*s`. -/
def Obligations.SlotNumberIsVaField : Prop :=
  (∀ l (baseVa va : Word64), slotOf l baseVa va = (va.toNat - baseVa.toNat) / strideOf l)
    ∧ (∀ (base : Word64) n, base.toNat + 8 * n < 2 ^ 64 →
      (slotAddr base n).toNat = base.toNat + 8 * n)
    ∧ (∀ va : Word64, va.toNat < 2 ^ 32 → slotOf .l1 0 va = (va.extractLsb' 30 2).toNat)
    ∧ ∀ baseVa va : Word64, baseVa.toNat % 2 ^ 30 = 0 → baseVa.toNat ≤ va.toNat →
      va.toNat < baseVa.toNat + 2 ^ 30 → slotOf .l2 baseVa va = (va.extractLsb' 21 9).toNat

/-- R139: the selected segment is the configured one with the greatest base at or below the address; there
is none exactly when every base lies above. -/
def Obligations.SegmentSelectionIsGreatestBase : Prop :=
  ∀ (va : Word64) (segs : List Segment), (segs.map (·.baseVa)).Nodup →
    (∀ g, selectSegment va segs = some g
        ↔ g ∈ segs ∧ g.baseVa.toNat ≤ va.toNat
          ∧ ∀ g' ∈ segs, g'.baseVa.toNat ≤ va.toNat → g'.baseVa.toNat ≤ g.baseVa.toNat)
      ∧ (selectSegment va segs = none ↔ ∀ g ∈ segs, va.toNat < g.baseVa.toNat)

/-- R141, the read-back property S2: a build of regions that fit answers `OK`, every configured segment is
linked, every region slot that no later region covers holds the region's descriptor, every other slot, in a
table or not, keeps its previous value (R143), and no byte outside the tables changes. Records after the
sentinel are ignored. -/
def Obligations.PtBuildProgramsTables : Prop :=
  ∀ (s : State) (rs rest : List Region) (e : Region) (count : BitVec 16),
    buildReady s.cfg rs = true → isSentinel e = true → rs.length < count.toNat →
    ∃ t, exec (.ptBuild count (rs ++ e :: rest)) s = .next t
      ∧ (∀ g ∈ s.cfg.segs, memRead t (slotAddr s.cfg.l1Base (slotOf .l1 0 g.baseVa))
          = g.tablePtr ||| s.cfg.tagTable.setWidth 64)
      ∧ (∀ pre r post g, rs = pre ++ r :: post →
        selectSegment r.virtualAddress s.cfg.segs = some g →
        ∀ n < slotCount .l2 r.size,
          (∀ r' ∈ post, ∀ g', selectSegment r'.virtualAddress s.cfg.segs = some g' →
            ∀ n' < slotCount .l2 r'.size, regionSlot g' r' n' ≠ regionSlot g r n) →
          memRead t (regionSlot g r n)
            = if r.attr = 0 then 0
              else (r.physicalAddress + BitVec.ofNat 64 (n * 2 ^ 21)) ||| r.attr
                ||| s.cfg.tagBlock.l2.setWidth 64)
      ∧ (∀ a : Word64, a.toNat % 8 = 0 →
        (∀ g ∈ s.cfg.segs, a ≠ slotAddr s.cfg.l1Base (slotOf .l1 0 g.baseVa)) →
        (∀ r ∈ rs, ∀ g, selectSegment r.virtualAddress s.cfg.segs = some g →
          ∀ n < slotCount .l2 r.size, a ≠ regionSlot g r n) →
        memRead t a = memRead s a)
      ∧ (∀ x, (∀ tb ∈ s.cfg.tables, x < tb.1 ∨ tb.1 + tb.2 ≤ x) → t.tm.byte x = s.tm.byte x)
      ∧ t = { answered s .ok .none with
              tm := t.tm
              unsynced := if s.cfg.segs = [] then s.unsynced else []
              opWindow := t.opWindow }

/-- R142: a build stops at the first region that fails. The links and the regions before it stand as a build
of those alone leaves them; the failing region and those after it have written nothing. -/
def Obligations.PtBuildStopsAtFirstFailure : Prop :=
  ∀ (s t : State) (pre post : List Region) (r e : Region),
    (∀ x ∈ pre, isSentinel x = false) → isSentinel r = false → isSentinel e = true →
    pre.length + 1 + post.length < 2 ^ 16 →
    exec (.ptBuild (BitVec.ofNat 16 (pre.length + 1)) (pre ++ [e])) s = .next t →
    answeredOk t = true →
    (selectSegment r.virtualAddress s.cfg.segs = none
      ∨ (s.cfg.paramCheck = true
        ∧ allAligned .l2 [r.virtualAddress, r.physicalAddress, r.size] = false)) →
    exec (.ptBuild (BitVec.ofNat 16 (pre.length + 1 + post.length)) (pre ++ r :: post)) s
      = .next { t with rsp := some ⟨.invalidArgument, .none⟩ }

/-- R140: a list whose regions can all be built but that has no sentinel is refused. -/
def Obligations.PtBuildWithoutSentinelIsRefused : Prop :=
  ∀ (s t : State) (rs : List Region) (e : Region),
    (∀ x ∈ rs, isSentinel x = false) → isSentinel e = true → rs.length + 1 < 2 ^ 16 →
    exec (.ptBuild (BitVec.ofNat 16 (rs.length + 1)) (rs ++ [e])) s = .next t →
    answeredOk t = true →
    exec (.ptBuild (BitVec.ofNat 16 rs.length) rs) s = .refused .noSentinel

/-- R146: PT.ACTIVATE has op 0x25 and no operand; `MAIR` and `TCR` hold CFG's values, `TTBR` points at the
level-1 table with bit 0 set, and a barrier has been performed, which the model records as an empty `unsynced`
(log 16). One atomic step (log 17) does not show that the barrier comes before the write of `TTBR`. -/
def Obligations.PtActivateWritesCpuRegisters : Prop :=
  encode .ptActivate = fieldBits 8 0x25
    ∧ ∀ s, exec .ptActivate s
      = .next { answered s .ok .none with
                mair := s.cfg.mairValue
                tcr := s.cfg.tcrValue
                ttbr := s.cfg.l1Base ||| 1
                unsynced := [] }

/-- R89: MMU.OPEN is PT.BUILD and, only if that answered `OK`, PT.ACTIVATE. -/
def Obligations.MmuOpenIsBuildThenActivate : Prop :=
  ∀ (regions : List Region) (s t : State), regions.length < 2 ^ 16 →
    exec (.ptBuild (BitVec.ofNat 16 regions.length) regions) s = .next t →
    execMmuOpen regions s = if answeredOk t then exec .ptActivate t else .next t

/-- R148, R149: both address queries have format A and answer their argument; the tables are not
consulted. -/
def Obligations.AddressTranslationIsIdentity : Prop :=
  ∀ (addr : Word64) (s : State),
    encode (.atV2p addr) = fieldBits 8 0x26 ++ fieldBits 64 addr.toNat
      ∧ exec (.atV2p addr) s = .next (answered s .ok (.addr addr))
      ∧ encode (.atP2v addr) = fieldBits 8 0x27 ++ fieldBits 64 addr.toNat
      ∧ exec (.atP2v addr) s = .next (answered s .ok (.addr addr))

/-- R66: `Walk` through a link and a level-2 block gives the block's address with the page offset and its
attributes; a zero slot is a fault. Default tags and masks; the operands keep R113's duties. -/
def Obligations.WalkReadsLinkedBlock : Prop :=
  ∀ (s : State) (va t2 pa attr : Word64),
    s.cfg.tagTable = 0b11 → s.cfg.tagBlock = Cfg.launch.tagBlock →
    s.cfg.oaMask = Cfg.launch.oaMask → s.cfg.nextMask = Cfg.launch.nextMask →
    s.cfg.attrMask = Cfg.launch.attrMask → va.toNat < 2 ^ 32 →
    t2 &&& s.cfg.nextMask = t2 →
    memRead s (slotAddr s.cfg.l1Base (va.toNat / 2 ^ 30)) = t2 ||| 0b11 →
    pa.toNat % 2 ^ 21 = 0 → pa.toNat < 2 ^ 48 → attr &&& 0x0000FFFFFFFFF003 = 0 →
    (memRead s (slotAddr t2 (va.toNat / 2 ^ 21 % 512)) = pa ||| attr ||| 0b01 →
        walk s va = .mapped (pa ||| BitVec.ofNat 64 (va.toNat % 2 ^ 21)) attr)
      ∧ (memRead s (slotAddr t2 (va.toNat / 2 ^ 21 % 512)) = 0 → walk s va = .fault)

/-! ### DLC and frame validity -/

/-- R162: DLC.B2C has op 0x30 and format D; up to 64 bytes it answers the code of the stated stride rule
under `DLC_ROUND`, above 64 `InvalidArgument`. -/
def Obligations.DlcB2cFollowsStrideRule : Prop :=
  ∀ (n : Byte) (s : State),
    encode (.dlcB2c n) = fieldBits 8 0x30 ++ fieldBits 8 n.toNat
      ∧ (64 < n.toNat → FailsWith (.dlcB2c n) s .invalidArgument .code)
      ∧ (n.toNat ≤ 64 → ∃ code : BitVec 4,
        exec (.dlcB2c n) s = .next (answered s .ok (.code code))
          ∧ code.toNat
            = if n.toNat ≤ 8 then n.toNat
              else if n.toNat ≤ 24 then
                (if s.cfg.dlcRound = .up then 8 + (n.toNat - 8 + 3) / 4
                  else 8 + (n.toNat - 8) / 4)
              else
                (if s.cfg.dlcRound = .up then 11 + (n.toNat + 15) / 16 else 11 + n.toNat / 16))

/-- R163 with the table of R160: DLC.C2B has op 0x31 and format D; it answers the code's byte count, above
15 `InvalidArgument`. -/
def Obligations.DlcC2bReadsTable : Prop :=
  ∀ (n : Byte) (s : State),
    encode (.dlcC2b n) = fieldBits 8 0x31 ++ fieldBits 8 n.toNat
      ∧ (15 < n.toNat → FailsWith (.dlcC2b n) s .invalidArgument .bytes)
      ∧ (n.toNat ≤ 15 →
        exec (.dlcC2b n) s = .next (answered s .ok (.bytes (BitVec.ofNat 8
          ([0, 1, 2, 3, 4, 5, 6, 7, 8, 12, 16, 20, 24, 32, 48, 64].getD n.toNat 0)))))

/-- R164: the laws of the pair. -/
def Obligations.DlcPairLaws : Prop :=
  (∀ round, ∀ n ≤ 64, validLen n = true → ∃ code, bytesToDlc round n = some code
      ∧ dlcBytes code = n ∧ bytesToDlc round (dlcBytes code) = some code)
    ∧ (∀ round code, bytesToDlc round (dlcBytes code) = some code)
    ∧ (∀ round, ∀ n ≤ 64, ∀ m ≤ n, ∃ cn cm, bytesToDlc round n = some cn
      ∧ bytesToDlc round m = some cm ∧ cm.toNat ≤ cn.toNat)
    ∧ (∀ n ≤ 64, ∃ code, bytesToDlc .up n = some code ∧ n ≤ dlcBytes code)
    ∧ ∀ n ≤ 64, ∃ code, bytesToDlc .down n = some code ∧ dlcBytes code ≤ n

/-- R166 with R165: FRM.CHECK has op 0x32; it answers `OK` for a frame of a valid shape and
`InvalidArgument` otherwise, and changes nothing. -/
def Obligations.FrmCheckTestsFrameShape : Prop :=
  ∀ (f : Frame) (s : State),
    encode (.frmCheck f) = fieldBits 8 0x32 ++ frameFields f
      ∧ (GoodFrame s.cfg f → exec (.frmCheck f) s = .next (answered s .ok .none))
      ∧ (¬ GoodFrame s.cfg f → exec (.frmCheck f) s = .next (answered s .invalidArgument .none))

/-! ### The index calculator -/

/-- R186: IDX.CLASSW classifies an index into the message-buffer and the common-FIFO range; `h` is the local
index plus the channel's share, as integers, where it fits its 32-bit field. -/
def Obligations.IdxClassWClassifiesForWrite : Prop :=
  ∀ (ch : Byte) (index : Word32) (s : State), s.cfg.rangesWf = true →
    encode (.idxClassW ch index)
        = fieldBits 8 0x33 ++ (fieldBits 8 ch.toNat ++ fieldBits 32 index.toNat)
      ∧ (s.cfg.nChannels ≤ ch.toNat → exec (.idxClassW ch index) s = .refused .channelOutOfRange)
      ∧ (ch.toNat < s.cfg.nChannels →
        (index.toNat < s.cfg.nMb → ∃ h,
            exec (.idxClassW ch index) s = .next (answered s .ok (.index 0 index h))
              ∧ (index.toNat + ch.toNat * s.cfg.chStride.mb < 2 ^ 32 →
                h.toNat = index.toNat + ch.toNat * s.cfg.chStride.mb))
          ∧ (s.cfg.cFifoBase ≤ index.toNat ∧ index.toNat < s.cfg.cFifoBase + s.cfg.nCFifo → ∃ k h,
            exec (.idxClassW ch index) s = .next (answered s .ok (.index 2 k h))
              ∧ k.toNat = index.toNat - s.cfg.cFifoBase
              ∧ (k.toNat + ch.toNat * s.cfg.chStride.cFifo < 2 ^ 32 →
                h.toNat = k.toNat + ch.toNat * s.cfg.chStride.cFifo))
          ∧ ((s.cfg.nMb ≤ index.toNat ∧ index.toNat < s.cfg.cFifoBase)
              ∨ s.cfg.cFifoBase + s.cfg.nCFifo ≤ index.toNat →
            FailsWith (.idxClassW ch index) s .invalidArgument .index))

/-- R187: IDX.CLASSR classifies an index into the three ranges. -/
def Obligations.IdxClassRClassifiesForRead : Prop :=
  ∀ (ch : Byte) (index : Word32) (s : State), s.cfg.rangesWf = true →
    encode (.idxClassR ch index)
        = fieldBits 8 0x34 ++ (fieldBits 8 ch.toNat ++ fieldBits 32 index.toNat)
      ∧ (s.cfg.nChannels ≤ ch.toNat → exec (.idxClassR ch index) s = .refused .channelOutOfRange)
      ∧ (ch.toNat < s.cfg.nChannels →
        (index.toNat < s.cfg.nMb → ∃ h,
            exec (.idxClassR ch index) s = .next (answered s .ok (.index 0 index h))
              ∧ (index.toNat + ch.toNat * s.cfg.chStride.mb < 2 ^ 32 →
                h.toNat = index.toNat + ch.toNat * s.cfg.chStride.mb))
          ∧ (s.cfg.nMb ≤ index.toNat ∧ index.toNat < s.cfg.nMb + s.cfg.nRxFifo → ∃ k h,
            exec (.idxClassR ch index) s = .next (answered s .ok (.index 1 k h))
              ∧ k.toNat = index.toNat - s.cfg.nMb
              ∧ (k.toNat + ch.toNat * s.cfg.chStride.rxFifo < 2 ^ 32 →
                h.toNat = k.toNat + ch.toNat * s.cfg.chStride.rxFifo))
          ∧ (s.cfg.cFifoBase ≤ index.toNat ∧ index.toNat < s.cfg.cFifoBase + s.cfg.nCFifo → ∃ k h,
            exec (.idxClassR ch index) s = .next (answered s .ok (.index 2 k h))
              ∧ k.toNat = index.toNat - s.cfg.cFifoBase
              ∧ (k.toNat + ch.toNat * s.cfg.chStride.cFifo < 2 ^ 32 →
                h.toNat = k.toNat + ch.toNat * s.cfg.chStride.cFifo))
          ∧ ((s.cfg.nMb + s.cfg.nRxFifo ≤ index.toNat ∧ index.toNat < s.cfg.cFifoBase)
              ∨ s.cfg.cFifoBase + s.cfg.nCFifo ≤ index.toNat →
            FailsWith (.idxClassR ch index) s .invalidArgument .index))

/-- R188: the laws of the family. -/
def Obligations.IndexClassificationLaws : Prop :=
  (∀ ch index (s : State) cls k h,
      exec (.idxClassW ch index) s = .next (answered s .ok (.index cls k h))
        ↔ exec (.idxClassR ch index) s = .next (answered s .ok (.index cls k h)) ∧ cls ≠ 1)
    ∧ (∀ c i j cls k k' ch, classify c i = some (cls, k) → classify c j = some (cls, k') →
      hwIndex c cls k ch = hwIndex c cls k' ch → i = j)
    ∧ (∀ c k k' ch ch', c.nMb ≤ c.chStride.mb → k < c.nMb → k' < c.nMb →
      hwIndex c .mb k ch = hwIndex c .mb k' ch' → k = k' ∧ ch = ch')
    ∧ ∀ c cls k ch ch', c.chStride.forClass cls = 0 → hwIndex c cls k ch = hwIndex c cls k ch'

/-! ### The frame codec -/

/-- R205 with R201, R204: FRM.ENC has op 0x35; it packs an admitted frame over the zero image, refuses an
identifier of `2^ID_W` or more, and answers `InvalidArgument` above 64 bytes. -/
def Obligations.FrmEncPacksFrame : Prop :=
  ∀ (f : Frame) (s : State),
    encode (.frmEnc f) = fieldBits 8 0x35 ++ frameFields f
      ∧ (2 ^ s.cfg.idW.val ≤ f.id.toNat → exec (.frmEnc f) s = .refused .idOutOfRange)
      ∧ (f.id.toNat < 2 ^ s.cfg.idW.val → 64 < f.len.toNat →
        FailsWith (.frmEnc f) s .invalidArgument .image)
      ∧ (f.id.toNat < 2 ^ s.cfg.idW.val → f.len.toNat ≤ 64 → ∃ code img,
        bytesToDlc s.cfg.dlcRound f.len.toNat = some code
          ∧ IsImageOf s.cfg f code ⟨0, 0, 0, Vector.replicate 64 0⟩ img
          ∧ exec (.frmEnc f) s = .next (answered s .ok (.image img)))

/-- R208 with R202: FRM.DEC has op 0x36; every image decodes. -/
def Obligations.FrmDecUnpacksImage : Prop :=
  ∀ (img : Image) (s : State),
    encode (.frmDec img) = fieldBits 8 0x36 ++ imageFields img
      ∧ ∃ f, IsFrameOf s.cfg img f ∧ exec (.frmDec img) s = .next (answered s .ok (.frame f))

/-- R50, R95: seen as sixteen 32-bit data words, payload byte `DATA[i]` is byte `i mod 4`, from the least
significant, of word `DF[i div 4]`, and the words and the bytes hold the same payload (log 22). -/
def Obligations.PayloadBytesLieInDataWords : Prop :=
  (∀ (data : Vector Byte 64) (i : Fin 64),
      (dataWords data)[i.val / 4].extractLsb' (8 * (i.val % 4)) 8 = data[i])
    ∧ (∀ data : Vector Byte 64, dataOfWords (dataWords data) = data)
    ∧ ∀ words : Vector Word32 16, dataWords (dataOfWords words) = words

/-- R206: decoding an encoded frame gives the frame back, over any old image; a frame whose only fault is a
length outside the table decodes with the rounded length, which differs. The bit positions must not
overlap, which R92 to R94 presuppose (`Cfg.layoutWf`). -/
def Obligations.FrameRoundTrip : Prop :=
  ∀ (c : Cfg) (f : Frame) (old : Image) (draw : Nat), c.layoutWf = true →
    f.id.toNat < 2 ^ c.idW.val →
    (GoodFrame c f → ∃ img, encodeImage c f old = some img
        ∧ SameFrame f (decodeFrame c draw img)
        ∧ (f.options &&& c.optFd = 0 → (decodeFrame c draw img).len.toNat ≤ 8))
      ∧ (f.options &&& c.optFd ≠ 0 → f.len.toNat ≤ 64 → ¬ GoodFrame c f →
        ∃ img code, encodeImage c f old = some img
          ∧ bytesToDlc c.dlcRound f.len.toNat = some code
          ∧ (decodeFrame c draw img).len.toNat = dlcBytes code
          ∧ (decodeFrame c draw img).len ≠ f.len)

/-! ### Frame I/O -/

/-- R212, message buffer: an admitted frame is packed over the old image of a buffer that is not busy, and
the transmit request is set; nothing else changes. -/
def Obligations.CanWriteFillsMessageBuffer : Prop :=
  ∀ (ch : Byte) (index : Word32) (f : Frame) (s : State) (b : TxBuffer),
    ch.toNat < s.cfg.nChannels → index.toNat < s.cfg.nMb →
    s.txmb[index.toNat + ch.toNat * s.cfg.chStride.mb]? = some b → b.busy = false →
    GoodFrame s.cfg f → f.id.toNat < 2 ^ s.cfg.idW.val →
    ∃ code img, bytesToDlc s.cfg.dlcRound f.len.toNat = some code
      ∧ IsImageOf s.cfg f code b.img img
      ∧ exec (.canWrite ch index f) s
        = .next { answered s .ok .none with
                  txmb := s.txmb.set (index.toNat + ch.toNat * s.cfg.chStride.mb) ⟨img, true⟩ }

/-- R212, common FIFO: an admitted frame is packed over the zero image and appended to the transmit queue,
which holds fewer than `FIFO_DEPTH` images; nothing else changes. -/
def Obligations.CanWriteAppendsToCommonFifo : Prop :=
  ∀ (ch : Byte) (index : Word32) (f : Frame) (s : State) (q : CommonFifo),
    s.cfg.rangesWf = true → ch.toNat < s.cfg.nChannels →
    s.cfg.cFifoBase ≤ index.toNat → index.toNat < s.cfg.cFifoBase + s.cfg.nCFifo →
    s.cfifo[index.toNat - s.cfg.cFifoBase + ch.toNat * s.cfg.chStride.cFifo]? = some q →
    (∀ d, s.cfg.fifoDepth = some d → q.txq.length < d) →
    GoodFrame s.cfg f → f.id.toNat < 2 ^ s.cfg.idW.val →
    ∃ code img, bytesToDlc s.cfg.dlcRound f.len.toNat = some code
      ∧ IsImageOf s.cfg f code ⟨0, 0, 0, Vector.replicate 64 0⟩ img
      ∧ exec (.canWrite ch index f) s
        = .next { answered s .ok .none with
                  cfifo := s.cfifo.set
                    (index.toNat - s.cfg.cFifoBase + ch.toNat * s.cfg.chStride.cFifo)
                    { q with txq := q.txq ++ [img] } }

/-- R213: the write checks in their order: the index, then transmit-in-progress, then the frame shape;
for a common FIFO, which has no transmit-in-progress test, the frame is checked before the FIFO is reached. -/
def Obligations.CanWriteChecksInOrder : Prop :=
  ∀ (ch : Byte) (index : Word32) (f : Frame) (s : State), s.cfg.rangesWf = true →
    ch.toNat < s.cfg.nChannels →
    ((s.cfg.nMb ≤ index.toNat ∧ index.toNat < s.cfg.cFifoBase)
        ∨ s.cfg.cFifoBase + s.cfg.nCFifo ≤ index.toNat →
        exec (.canWrite ch index f) s = .next (answered s .invalidArgument .none))
      ∧ (index.toNat < s.cfg.nMb → ∀ b,
        s.txmb[index.toNat + ch.toNat * s.cfg.chStride.mb]? = some b →
        (b.busy = true →
            exec (.canWrite ch index f) s = .next (answered s .canTransmitNotReady .none))
          ∧ (b.busy = false → ¬ GoodFrame s.cfg f →
            exec (.canWrite ch index f) s = .next (answered s .invalidArgument .none)))
      ∧ (s.cfg.cFifoBase ≤ index.toNat ∧ index.toNat < s.cfg.cFifoBase + s.cfg.nCFifo →
        ¬ GoodFrame s.cfg f →
        exec (.canWrite ch index f) s = .next (answered s .invalidArgument .none))

/-- R212, R204, R216: where CAN.WRITE is refused: a channel that does not exist; after the checks of R213 an
identifier of `2^ID_W` or more; and a common FIFO whose transmit queue is full. -/
def Obligations.CanWriteRefusals : Prop :=
  ∀ (ch : Byte) (index : Word32) (f : Frame) (s : State), s.cfg.rangesWf = true →
    (s.cfg.nChannels ≤ ch.toNat →
        exec (.canWrite ch index f) s = .refused .channelOutOfRange)
      ∧ (ch.toNat < s.cfg.nChannels → GoodFrame s.cfg f →
        (index.toNat < s.cfg.nMb → ∀ b,
            s.txmb[index.toNat + ch.toNat * s.cfg.chStride.mb]? = some b → b.busy = false →
            2 ^ s.cfg.idW.val ≤ f.id.toNat →
            exec (.canWrite ch index f) s = .refused .idOutOfRange)
          ∧ (s.cfg.cFifoBase ≤ index.toNat ∧ index.toNat < s.cfg.cFifoBase + s.cfg.nCFifo →
            (2 ^ s.cfg.idW.val ≤ f.id.toNat →
                exec (.canWrite ch index f) s = .refused .idOutOfRange)
              ∧ (f.id.toNat < 2 ^ s.cfg.idW.val → ∀ q d,
                s.cfifo[index.toNat - s.cfg.cFifoBase + ch.toNat * s.cfg.chStride.cFifo]? = some q →
                s.cfg.fifoDepth = some d → d ≤ q.txq.length →
                exec (.canWrite ch index f) s = .refused .fifoFull)))

/-- R214: a CAN.WRITE or CAN.READ that answers an error has changed nothing but the response. -/
def Obligations.FailedFrameIoChangesNothing : Prop :=
  ∀ (i : Instr) (s t : State),
    (∃ ch index f, i = .canWrite ch index f) ∨ (∃ ch index, i = .canRead ch index) →
    exec i s = .next t → answeredOk t = false →
    t = { s with rsp := t.rsp, draws := s.draws + 1 }

/-- R220, message buffer: a read of a buffer with new data answers the frame its image holds and clears the
bit; the image stays, and nothing else changes. -/
def Obligations.CanReadTakesMessageBuffer : Prop :=
  ∀ (ch : Byte) (index : Word32) (s : State) (b : RxBuffer),
    ch.toNat < s.cfg.nChannels → index.toNat < s.cfg.nMb →
    s.rxmb[index.toNat + ch.toNat * s.cfg.chStride.mb]? = some b → b.newdata = true →
    ∃ f, IsFrameOf s.cfg b.img f
      ∧ exec (.canRead ch index) s
        = .next { answered s .ok (.frame f) with
                  rxmb := s.rxmb.set (index.toNat + ch.toNat * s.cfg.chStride.mb)
                    ⟨b.img, false⟩ }

/-- R220, FIFOs: a read of an RX FIFO or of a common FIFO's receive queue answers the frame of the oldest
image and removes it; nothing else changes. -/
def Obligations.CanReadTakesOldestFromFifo : Prop :=
  ∀ (ch : Byte) (index : Word32) (s : State) (img : Image), s.cfg.rangesWf = true →
    ch.toNat < s.cfg.nChannels →
    (s.cfg.nMb ≤ index.toNat ∧ index.toNat < s.cfg.nMb + s.cfg.nRxFifo → ∀ q,
        s.rxfifo[index.toNat - s.cfg.nMb + ch.toNat * s.cfg.chStride.rxFifo]? = some (img :: q) →
        ∃ f, IsFrameOf s.cfg img f
          ∧ exec (.canRead ch index) s
            = .next { answered s .ok (.frame f) with
                      rxfifo := s.rxfifo.set
                        (index.toNat - s.cfg.nMb + ch.toNat * s.cfg.chStride.rxFifo) q })
      ∧ (s.cfg.cFifoBase ≤ index.toNat ∧ index.toNat < s.cfg.cFifoBase + s.cfg.nCFifo →
        ∀ txq q,
        s.cfifo[index.toNat - s.cfg.cFifoBase + ch.toNat * s.cfg.chStride.cFifo]?
          = some ⟨txq, img :: q⟩ →
        ∃ f, IsFrameOf s.cfg img f
          ∧ exec (.canRead ch index) s
            = .next { answered s .ok (.frame f) with
                      cfifo := s.cfifo.set
                        (index.toNat - s.cfg.cFifoBase + ch.toNat * s.cfg.chStride.cFifo)
                        ⟨txq, q⟩ })

/-- R221 with R220: the read checks in their order: the channel, the index whatever any status bit says, then
not-empty. -/
def Obligations.CanReadChecksInOrder : Prop :=
  ∀ (ch : Byte) (index : Word32) (s : State), s.cfg.rangesWf = true →
    (s.cfg.nChannels ≤ ch.toNat → exec (.canRead ch index) s = .refused .channelOutOfRange)
      ∧ (ch.toNat < s.cfg.nChannels →
        ((s.cfg.nMb + s.cfg.nRxFifo ≤ index.toNat ∧ index.toNat < s.cfg.cFifoBase)
            ∨ s.cfg.cFifoBase + s.cfg.nCFifo ≤ index.toNat →
            FailsWith (.canRead ch index) s .invalidArgument .frame)
          ∧ (index.toNat < s.cfg.nMb → ∀ b,
            s.rxmb[index.toNat + ch.toNat * s.cfg.chStride.mb]? = some b → b.newdata = false →
            FailsWith (.canRead ch index) s .bufferEmpty .frame)
          ∧ (s.cfg.nMb ≤ index.toNat ∧ index.toNat < s.cfg.nMb + s.cfg.nRxFifo →
            s.rxfifo[index.toNat - s.cfg.nMb + ch.toNat * s.cfg.chStride.rxFifo]? = some [] →
            FailsWith (.canRead ch index) s .bufferEmpty .frame)
          ∧ (s.cfg.cFifoBase ≤ index.toNat ∧ index.toNat < s.cfg.cFifoBase + s.cfg.nCFifo →
            ∀ txq,
            s.cfifo[index.toNat - s.cfg.cFifoBase + ch.toNat * s.cfg.chStride.cFifo]?
              = some ⟨txq, []⟩ →
            FailsWith (.canRead ch index) s .bufferEmpty .frame))

/-- R222: a read of a message buffer with new data answers `OK` and clears the bit, and a second read right
after answers `BufferEmpty` and changes nothing. -/
def Obligations.SecondReadFindsBufferEmpty : Prop :=
  ∀ (ch : Byte) (index : Word32) (s : State) (b : RxBuffer),
    ch.toNat < s.cfg.nChannels → index.toNat < s.cfg.nMb →
    s.rxmb[index.toNat + ch.toNat * s.cfg.chStride.mb]? = some b → b.newdata = true →
    ∃ t, exec (.canRead ch index) s = .next t ∧ answeredOk t = true
      ∧ t.rxmb[index.toNat + ch.toNat * s.cfg.chStride.mb]? = some ⟨b.img, false⟩
      ∧ FailsWith (.canRead ch index) t .bufferEmpty .frame

/-- The loop-back run of C4 and program P2: a frame written to a message buffer, delivered by the peripheral
into the receive buffer of the same index (R39 move (b)), is read back as it was written. -/
def Obligations.DeliveredFrameReadsBack : Prop :=
  ∀ (ch : Byte) (index : Word32) (f : Frame) (s t : State) (b : TxBuffer) (r : RxBuffer),
    s.cfg.layoutWf = true → index.toNat < s.cfg.nMb →
    s.rxmb[index.toNat + ch.toNat * s.cfg.chStride.mb]? = some r →
    exec (.canWrite ch index f) s = .next t → answeredOk t = true →
    t.txmb[index.toNat + ch.toNat * s.cfg.chStride.mb]? = some b →
    ∃ u v g,
      takeInput (.deliverMb (index.toNat + ch.toNat * s.cfg.chStride.mb) b.img) t = .next u
        ∧ exec (.canRead ch index) u = .next v ∧ v.rsp = some ⟨.ok, .frame g⟩ ∧ SameFrame f g

/-! ### The other agents -/

/-- R39: the peripheral's moves: (a) clears a set busy bit, (b) writes an image and sets new data, (c) appends
to a receive queue, (d) removes the head of a transmit queue; each changes nothing else. -/
def Obligations.PeripheralMovesChangeOneBuffer : Prop :=
  ∀ s : State,
    (∀ (h : Nat) (b : TxBuffer), s.txmb[h]? = some b → b.busy = true →
        takeInput (.txDone h) s = .next { s with txmb := s.txmb.set h ⟨b.img, false⟩ })
      ∧ (∀ (h : Nat) (b : RxBuffer) (img : Image), s.rxmb[h]? = some b →
        takeInput (.deliverMb h img) s = .next { s with rxmb := s.rxmb.set h ⟨img, true⟩ })
      ∧ (∀ (k : Nat) (q : List Image) (img : Image), s.rxfifo[k]? = some q →
        takeInput (.deliverRxFifo k img) s
          = .next { s with rxfifo := s.rxfifo.set k (q ++ [img]) })
      ∧ (∀ (k : Nat) (f : CommonFifo) (img : Image), s.cfifo[k]? = some f →
        takeInput (.deliverCFifo k img) s
          = .next { s with cfifo := s.cfifo.set k ⟨f.txq, f.rxq ++ [img]⟩ })
      ∧ (∀ (k : Nat) (img : Image) (txq rxq : List Image), s.cfifo[k]? = some ⟨img :: txq, rxq⟩ →
        takeInput (.cFifoSent k) s = .next { s with cfifo := s.cfifo.set k ⟨txq, rxq⟩ })

/-- R52: after a PD.WRITE the walker reads the whole old or the whole new value of the slot, never a mixture,
and it may read either, also inside the operation. -/
def Obligations.WalkerReadsOldOrNewSlot : Prop :=
  ∀ (a v : Word64) (s t : State), (∀ w ∈ s.unsynced, w.addr ≠ a) →
    exec (.pdWrite a v) s.beginOp = .next t →
    (∀ within choice u, takeInput (.walkerRead a within choice) t = .next u →
        u.walkerSees = some v ∨ u.walkerSees = some (memRead s a))
      ∧ ∀ within x, x = v ∨ x = memRead s a →
        ∃ choice, takeInput (.walkerRead a within choice) t = .next { t with walkerSees := some x }

/-- R58: a fill or an activation that answers `OK` ends with everything it stored visible: from then on the
walker reads what `TM` holds. So does the requester's own barrier (R281). -/
def Obligations.BarrierMakesStoresVisible : Prop :=
  ∀ (s t u : State) (a : Word64) (choice : Nat),
    ((∃ i, exec i s = .next t ∧ answeredOk t = true
        ∧ ((∃ level basePtr baseVa va child, i = .ptLink level basePtr baseVa va child)
          ∨ (∃ level basePtr baseVa va pa size attr,
            i = .ptMap level basePtr baseVa va pa size attr)
          ∨ (∃ level basePtr baseVa va pa size, i = .ptFault level basePtr baseVa va pa size)
          ∨ i = .ptActivate))
      ∨ takeInput .requesterBarrier s = .next t) →
    takeInput (.walkerRead a false choice) t = .next u → u.walkerSees = some (memRead t a)

/-! ### Whole-machine rules -/

/-- R82: a response is the code of R240 for its status, in 8 bits, and then the result fields that R82 lists
for the operation, in their order, each at its width. -/
def Obligations.ResponseHasItsResultFields : Prop :=
  ∀ (i : Instr) (s t : State), exec i s = .next t →
    t.draws = s.draws + 1 ∧ ∃ r, t.rsp = some r ∧ r.result.shape = resultShape i
      ∧ responseBits r = fieldBits 8 (kindCode r.status) ++ resultFields r.result
      ∧ (responseBits r).length = 8 + shapeWidth (resultShape i)

/-- R240, R241: an operation returns only the status kinds the spec lists for it. -/
def Obligations.OperationReturnsListedKinds : Prop :=
  ∀ (i : Instr) (s t : State), exec i s = .next t →
    ∃ r, t.rsp = some r ∧ r.status ∈ returnableKinds i

/-- R38: the CPU translation registers are written only by PT.ACTIVATE. -/
def Obligations.OnlyActivateWritesCpuRegisters : Prop :=
  ∀ (i : Instr) (s t : State), i ≠ .ptActivate → exec i s = .next t →
    t.mair = s.mair ∧ t.tcr = s.tcr ∧ t.ttbr = s.ttbr

/-- R42: an operation that is none of PD.WRITE, PT.LINK, PT.MAP, PT.FAULT and PT.BUILD leaves every byte of
`TM` alone; an operation that is neither CAN.WRITE nor CAN.READ leaves the CAN buffer window alone; and
those two leave `TM` and what the walker sees alone. -/
def Obligations.OperationsKeepToTheirStores : Prop :=
  ∀ (i : Instr) (s t : State), exec i s = .next t →
    (i.opcode ∉ [0x13, 0x21, 0x22, 0x23, 0x24] → t.tm = s.tm ∧ t.opWindow = s.opWindow)
      ∧ (i.opcode ∉ [0x13, 0x21, 0x22, 0x23, 0x24, 0x25] → t.unsynced = s.unsynced)
      ∧ (i.opcode ∉ [0x37, 0x38] →
        t.txmb = s.txmb ∧ t.rxmb = s.rxmb ∧ t.rxfifo = s.rxfifo ∧ t.cfifo = s.cfifo)
      ∧ t.inputs = s.inputs ∧ t.walkerSees = s.walkerSees

/-- R23, R24, R39: no operation clears a busy bit or sets a new-data bit, and a receive queue changes by losing
its oldest image only. -/
def Obligations.BlockNeverClearsBusyNorSetsNewData : Prop :=
  ∀ (i : Instr) (s t : State), exec i s = .next t →
    (∀ (h : Nat) (b : TxBuffer), s.txmb[h]? = some b → b.busy = true →
        ∃ b', t.txmb[h]? = some b' ∧ b'.busy = true)
      ∧ (∀ (h : Nat) (b' : RxBuffer), t.rxmb[h]? = some b' → b'.newdata = true →
        ∃ b, s.rxmb[h]? = some b ∧ b.newdata = true)
      ∧ (∀ (k : Nat) (q : List Image), s.rxfifo[k]? = some q →
        t.rxfifo[k]? = some q ∨ ∃ img q', q = img :: q' ∧ t.rxfifo[k]? = some q')
      ∧ ∀ (k : Nat) (f : CommonFifo), s.cfifo[k]? = some f → ∃ f', t.cfifo[k]? = some f'
        ∧ (f'.rxq = f.rxq ∨ ∃ img q', f.rxq = img :: q' ∧ f'.rxq = q')

/-- R271, R275: no step changes the configuration or the region list. -/
def Obligations.StepKeepsConfiguration : Prop :=
  ∀ s t : State, step s = .next t → t.cfg = s.cfg ∧ t.rl = s.rl

/-- Every step keeps the invariant: the canonical form of `TM`, the sizes of the banks, the transmit queues
within `FIFO_DEPTH`, and the record of what the walker may not see yet. The canonical form and that record
are the model's own (log 4, 16). -/
def Obligations.StepKeepsInvariant : Prop :=
  ∀ s t : State, Inv s → step s = .next t → Inv t

/-- The state after reset has the invariant, and so has the state after reset of any configuration, region
list and canonical table memory (R6, R270, R271): the banks have the sizes of R31 to R34. That memory lists
nothing in `State.reset` is the model's choice (log 4), as is its configuration (log 2). -/
def Obligations.ResetHasInvariant : Prop :=
  Inv State.reset
    ∧ ∀ (c : Cfg) (rl : List Region) (tm : Memory), tm.wf = true → Inv (State.resetOf c rl tm)

/-- At reset no transmit buffer is busy, no receive buffer has new data, and every queue is empty: reset takes
the launch premise `CanIdle` of R273, which the source does not state (D31); that the model does so is log 8. -/
def Obligations.ResetIsCanIdle : Prop := CanIdle State.reset

/-! ### Requests -/

/-- A request that decodes to an operation: the step takes it off the inputs, opens the walker's window on the
operation (log 16) and is the operation's meaning. Every input, of whatever agent, is taken by the step as its
move (log 1), MMU.OPEN on the state's region list (log 19); bits that are no request are refused (log 20);
with no input the block is idle (log 1). -/
def Obligations.StepRunsDecodedOperation : Prop :=
  (∀ (s : State) (bits : Bits) (rest : List Input) (i : Instr),
      s.inputs = .request bits :: rest → decode bits = .ok i → i.wf = true →
      step s = exec i { s with inputs := rest, opWindow := s.unsynced })
    ∧ (∀ (s : State) (input : Input) (rest : List Input), s.inputs = input :: rest →
      step s = takeInput input { s with inputs := rest })
    ∧ (∀ s : State, takeInput .mmuOpen s = execMmuOpen s.rl { s with opWindow := s.unsynced })
    ∧ (∀ (s : State) (bits : Bits),
      decode bits = .error .tooShort ∨ (∃ op, decode bits = .error (.wrongLength op)) →
      takeInput (.request bits) s = .refused .malformedRequest)
    ∧ ∀ s : State, s.inputs = [] → step s = .next s

/-- R85: every select code that the operation map does not list, 235 of them, is answered `Unsupported`
whatever follows it. Nothing changes but the response and two of the model's own records: the step takes the
input (log 1) and opens the walker's window (log 16). -/
def Obligations.ReservedOperationAnswersUnsupported : Prop :=
  ((List.range 256).filter fun op => !opcodes.contains op).length = 235
    ∧ ∀ (op : Byte) (tail : Bits) (s : State) (rest : List Input),
      op.toNat ∉ [0x10, 0x11, 0x12, 0x13, 0x20, 0x21, 0x22, 0x23, 0x24, 0x25, 0x26, 0x27,
        0x30, 0x31, 0x32, 0x33, 0x34, 0x35, 0x36, 0x37, 0x38] →
      s.inputs = .request (fieldBits 8 op.toNat ++ tail) :: rest →
      step s = .next { answered s .unsupported .none with inputs := rest, opWindow := s.unsynced }

/-- Decode and encode agree: every well-formed operation, with every operand at every value, is what its own
request decodes to. -/
def Obligations.DecodeOfEncode : Prop :=
  ∀ i : Instr, i.wf = true → decode (encode i) = .ok i

/-- R81 with the codes of R84: a request is the select code, then the operand fields of the operation's
format in their order, each an unsigned number of its stated width, the first most significant. -/
def Obligations.EncodingFollowsFormats : Prop :=
  (encode .pdFault = fieldBits 8 0x10 ∧ encode .ptAlloc = fieldBits 8 0x20
      ∧ encode .ptActivate = fieldBits 8 0x25)
    ∧ (∀ addr : Word64, encode (.pdLink addr) = fieldBits 8 0x11 ++ fieldBits 64 addr.toNat
      ∧ encode (.atV2p addr) = fieldBits 8 0x26 ++ fieldBits 64 addr.toNat
      ∧ encode (.atP2v addr) = fieldBits 8 0x27 ++ fieldBits 64 addr.toNat)
    ∧ (∀ (level : Byte) (addr attr : Word64), encode (.pdBlock level addr attr)
      = fieldBits 8 0x12 ++ (fieldBits 8 level.toNat ++ (fieldBits 64 addr.toNat
        ++ fieldBits 64 attr.toNat)))
    ∧ (∀ a v : Word64, encode (.pdWrite a v)
      = fieldBits 8 0x13 ++ (fieldBits 64 a.toNat ++ fieldBits 64 v.toNat))
    ∧ (∀ (level : Byte) (basePtr baseVa va child : Word64),
      encode (.ptLink level basePtr baseVa va child)
        = fieldBits 8 0x21 ++ (fieldBits 8 level.toNat ++ (fieldBits 64 basePtr.toNat
          ++ (fieldBits 64 baseVa.toNat ++ (fieldBits 64 va.toNat
            ++ fieldBits 64 child.toNat)))))
    ∧ (∀ (level : Byte) (basePtr baseVa va pa size attr : Word64),
      encode (.ptMap level basePtr baseVa va pa size attr)
          = fieldBits 8 0x22 ++ (fieldBits 8 level.toNat ++ (fieldBits 64 basePtr.toNat
            ++ (fieldBits 64 baseVa.toNat ++ (fieldBits 64 va.toNat ++ (fieldBits 64 pa.toNat
              ++ (fieldBits 64 size.toNat ++ fieldBits 64 attr.toNat))))))
        ∧ encode (.ptFault level basePtr baseVa va pa size)
          = fieldBits 8 0x23 ++ (fieldBits 8 level.toNat ++ (fieldBits 64 basePtr.toNat
            ++ (fieldBits 64 baseVa.toNat ++ (fieldBits 64 va.toNat ++ (fieldBits 64 pa.toNat
              ++ fieldBits 64 size.toNat))))))
    ∧ (∀ (count : BitVec 16) (regions : List Region), encode (.ptBuild count regions)
      = fieldBits 8 0x24 ++ (fieldBits 16 count.toNat ++ regions.flatMap regionFields))
    ∧ (∀ n : Byte, encode (.dlcB2c n) = fieldBits 8 0x30 ++ fieldBits 8 n.toNat
      ∧ encode (.dlcC2b n) = fieldBits 8 0x31 ++ fieldBits 8 n.toNat)
    ∧ (∀ f : Frame, encode (.frmCheck f) = fieldBits 8 0x32 ++ frameFields f
      ∧ encode (.frmEnc f) = fieldBits 8 0x35 ++ frameFields f)
    ∧ (∀ img : Image, encode (.frmDec img) = fieldBits 8 0x36 ++ imageFields img)
    ∧ ∀ (ch : Byte) (index : Word32) (f : Frame),
      encode (.idxClassW ch index)
          = fieldBits 8 0x33 ++ (fieldBits 8 ch.toNat ++ fieldBits 32 index.toNat)
        ∧ encode (.idxClassR ch index)
          = fieldBits 8 0x34 ++ (fieldBits 8 ch.toNat ++ fieldBits 32 index.toNat)
        ∧ encode (.canWrite ch index f)
          = fieldBits 8 0x37 ++ (fieldBits 8 ch.toNat ++ (fieldBits 32 index.toNat
            ++ frameFields f))
        ∧ encode (.canRead ch index)
          = fieldBits 8 0x38 ++ (fieldBits 8 ch.toNat ++ fieldBits 32 index.toNat)

/-- Each request has one meaning: what decodes is well-formed and is the request of what it decodes to. -/
def Obligations.EncodeOfDecode : Prop :=
  ∀ (bits : Bits) (i : Instr), decode bits = .ok i → i.wf = true ∧ encode i = bits

/-- Some words of `95_test_vectors.md`'s programs decode to their operations. -/
def Obligations.ProgramWordsDecode : Prop :=
  decode (fieldBits 8 0x25) = .ok .ptActivate
    ∧ decode (fieldBits 72 0x260000000010100000) = .ok (.atV2p 0x10100000)
    ∧ decode (fieldBits 144 0x120200000000200000000000000000000704)
      = .ok (.pdBlock 2 0x20000000 0x704)
    ∧ decode (fieldBits 48 0x330100000041) = .ok (.idxClassW 1 65)
end

