-- ==== Sys2Proof/Laws/State.lean ====
section
/-! SUPPORT. One lemma per field per update of the state, each true by unfolding. -/

namespace Sys2Proof.Machine

/-! ### Fields after answering -/

@[simp] theorem State.respond_cfg (s : State) (e : Status) (r : Result) :
    (s.respond e r).cfg = s.cfg := rfl
@[simp] theorem State.respond_rl (s : State) (e : Status) (r : Result) :
    (s.respond e r).rl = s.rl := rfl
@[simp] theorem State.respond_tm (s : State) (e : Status) (r : Result) :
    (s.respond e r).tm = s.tm := rfl
@[simp] theorem State.respond_unsynced (s : State) (e : Status) (r : Result) :
    (s.respond e r).unsynced = s.unsynced := rfl
@[simp] theorem State.respond_opWindow (s : State) (e : Status) (r : Result) :
    (s.respond e r).opWindow = s.opWindow := rfl
@[simp] theorem State.respond_mair (s : State) (e : Status) (r : Result) :
    (s.respond e r).mair = s.mair := rfl
@[simp] theorem State.respond_tcr (s : State) (e : Status) (r : Result) :
    (s.respond e r).tcr = s.tcr := rfl
@[simp] theorem State.respond_ttbr (s : State) (e : Status) (r : Result) :
    (s.respond e r).ttbr = s.ttbr := rfl
@[simp] theorem State.respond_txmb (s : State) (e : Status) (r : Result) :
    (s.respond e r).txmb = s.txmb := rfl
@[simp] theorem State.respond_rxmb (s : State) (e : Status) (r : Result) :
    (s.respond e r).rxmb = s.rxmb := rfl
@[simp] theorem State.respond_rxfifo (s : State) (e : Status) (r : Result) :
    (s.respond e r).rxfifo = s.rxfifo := rfl
@[simp] theorem State.respond_cfifo (s : State) (e : Status) (r : Result) :
    (s.respond e r).cfifo = s.cfifo := rfl
@[simp] theorem State.respond_inputs (s : State) (e : Status) (r : Result) :
    (s.respond e r).inputs = s.inputs := rfl
@[simp] theorem State.respond_rsp (s : State) (e : Status) (r : Result) :
    (s.respond e r).rsp = some ⟨e, r⟩ := rfl
@[simp] theorem State.respond_walkerSees (s : State) (e : Status) (r : Result) :
    (s.respond e r).walkerSees = s.walkerSees := rfl
@[simp] theorem State.respond_draws (s : State) (e : Status) (r : Result) :
    (s.respond e r).draws = s.draws + 1 := rfl

/-! ### Fields after raising an error -/

@[simp] theorem State.raise_cfg (s : State) (e : Status) (sh : ResultShape) :
    (s.raise e sh).cfg = s.cfg := rfl
@[simp] theorem State.raise_rl (s : State) (e : Status) (sh : ResultShape) :
    (s.raise e sh).rl = s.rl := rfl
@[simp] theorem State.raise_tm (s : State) (e : Status) (sh : ResultShape) :
    (s.raise e sh).tm = s.tm := rfl
@[simp] theorem State.raise_unsynced (s : State) (e : Status) (sh : ResultShape) :
    (s.raise e sh).unsynced = s.unsynced := rfl
@[simp] theorem State.raise_opWindow (s : State) (e : Status) (sh : ResultShape) :
    (s.raise e sh).opWindow = s.opWindow := rfl
@[simp] theorem State.raise_mair (s : State) (e : Status) (sh : ResultShape) :
    (s.raise e sh).mair = s.mair := rfl
@[simp] theorem State.raise_tcr (s : State) (e : Status) (sh : ResultShape) :
    (s.raise e sh).tcr = s.tcr := rfl
@[simp] theorem State.raise_ttbr (s : State) (e : Status) (sh : ResultShape) :
    (s.raise e sh).ttbr = s.ttbr := rfl
@[simp] theorem State.raise_txmb (s : State) (e : Status) (sh : ResultShape) :
    (s.raise e sh).txmb = s.txmb := rfl
@[simp] theorem State.raise_rxmb (s : State) (e : Status) (sh : ResultShape) :
    (s.raise e sh).rxmb = s.rxmb := rfl
@[simp] theorem State.raise_rxfifo (s : State) (e : Status) (sh : ResultShape) :
    (s.raise e sh).rxfifo = s.rxfifo := rfl
@[simp] theorem State.raise_cfifo (s : State) (e : Status) (sh : ResultShape) :
    (s.raise e sh).cfifo = s.cfifo := rfl
@[simp] theorem State.raise_inputs (s : State) (e : Status) (sh : ResultShape) :
    (s.raise e sh).inputs = s.inputs := rfl
@[simp] theorem State.raise_rsp (s : State) (e : Status) (sh : ResultShape) :
    (s.raise e sh).rsp = some ⟨e, freeResult s.draws sh⟩ := rfl
@[simp] theorem State.raise_walkerSees (s : State) (e : Status) (sh : ResultShape) :
    (s.raise e sh).walkerSees = s.walkerSees := rfl
@[simp] theorem State.raise_draws (s : State) (e : Status) (sh : ResultShape) :
    (s.raise e sh).draws = s.draws + 1 := rfl

/-! ### Fields after storing a slot -/

@[simp] theorem State.storeSlot_cfg (s : State) (a v : Word64) :
    (s.storeSlot a v).cfg = s.cfg := rfl
@[simp] theorem State.storeSlot_rl (s : State) (a v : Word64) :
    (s.storeSlot a v).rl = s.rl := rfl
@[simp] theorem State.storeSlot_tm (s : State) (a v : Word64) :
    (s.storeSlot a v).tm = s.tm.setSlot a.toNat v := rfl
@[simp] theorem State.storeSlot_unsynced (s : State) (a v : Word64) :
    (s.storeSlot a v).unsynced = s.unsynced ++ [⟨a, memRead s a⟩] := rfl
@[simp] theorem State.storeSlot_opWindow (s : State) (a v : Word64) :
    (s.storeSlot a v).opWindow = s.opWindow ++ [⟨a, memRead s a⟩] := rfl
@[simp] theorem State.storeSlot_mair (s : State) (a v : Word64) :
    (s.storeSlot a v).mair = s.mair := rfl
@[simp] theorem State.storeSlot_tcr (s : State) (a v : Word64) :
    (s.storeSlot a v).tcr = s.tcr := rfl
@[simp] theorem State.storeSlot_ttbr (s : State) (a v : Word64) :
    (s.storeSlot a v).ttbr = s.ttbr := rfl
@[simp] theorem State.storeSlot_txmb (s : State) (a v : Word64) :
    (s.storeSlot a v).txmb = s.txmb := rfl
@[simp] theorem State.storeSlot_rxmb (s : State) (a v : Word64) :
    (s.storeSlot a v).rxmb = s.rxmb := rfl
@[simp] theorem State.storeSlot_rxfifo (s : State) (a v : Word64) :
    (s.storeSlot a v).rxfifo = s.rxfifo := rfl
@[simp] theorem State.storeSlot_cfifo (s : State) (a v : Word64) :
    (s.storeSlot a v).cfifo = s.cfifo := rfl
@[simp] theorem State.storeSlot_inputs (s : State) (a v : Word64) :
    (s.storeSlot a v).inputs = s.inputs := rfl
@[simp] theorem State.storeSlot_rsp (s : State) (a v : Word64) :
    (s.storeSlot a v).rsp = s.rsp := rfl
@[simp] theorem State.storeSlot_walkerSees (s : State) (a v : Word64) :
    (s.storeSlot a v).walkerSees = s.walkerSees := rfl
@[simp] theorem State.storeSlot_draws (s : State) (a v : Word64) :
    (s.storeSlot a v).draws = s.draws := rfl

/-! ### Fields after the barrier -/

@[simp] theorem State.barrier_cfg (s : State) :
    (s.barrier).cfg = s.cfg := rfl
@[simp] theorem State.barrier_rl (s : State) :
    (s.barrier).rl = s.rl := rfl
@[simp] theorem State.barrier_tm (s : State) :
    (s.barrier).tm = s.tm := rfl
@[simp] theorem State.barrier_unsynced (s : State) :
    (s.barrier).unsynced = [] := rfl
@[simp] theorem State.barrier_opWindow (s : State) :
    (s.barrier).opWindow = s.opWindow := rfl
@[simp] theorem State.barrier_mair (s : State) :
    (s.barrier).mair = s.mair := rfl
@[simp] theorem State.barrier_tcr (s : State) :
    (s.barrier).tcr = s.tcr := rfl
@[simp] theorem State.barrier_ttbr (s : State) :
    (s.barrier).ttbr = s.ttbr := rfl
@[simp] theorem State.barrier_txmb (s : State) :
    (s.barrier).txmb = s.txmb := rfl
@[simp] theorem State.barrier_rxmb (s : State) :
    (s.barrier).rxmb = s.rxmb := rfl
@[simp] theorem State.barrier_rxfifo (s : State) :
    (s.barrier).rxfifo = s.rxfifo := rfl
@[simp] theorem State.barrier_cfifo (s : State) :
    (s.barrier).cfifo = s.cfifo := rfl
@[simp] theorem State.barrier_inputs (s : State) :
    (s.barrier).inputs = s.inputs := rfl
@[simp] theorem State.barrier_rsp (s : State) :
    (s.barrier).rsp = s.rsp := rfl
@[simp] theorem State.barrier_walkerSees (s : State) :
    (s.barrier).walkerSees = s.walkerSees := rfl
@[simp] theorem State.barrier_draws (s : State) :
    (s.barrier).draws = s.draws := rfl

/-! ### Fields after beginning an operation -/

@[simp] theorem State.beginOp_cfg (s : State) :
    (s.beginOp).cfg = s.cfg := rfl
@[simp] theorem State.beginOp_rl (s : State) :
    (s.beginOp).rl = s.rl := rfl
@[simp] theorem State.beginOp_tm (s : State) :
    (s.beginOp).tm = s.tm := rfl
@[simp] theorem State.beginOp_unsynced (s : State) :
    (s.beginOp).unsynced = s.unsynced := rfl
@[simp] theorem State.beginOp_opWindow (s : State) :
    (s.beginOp).opWindow = s.unsynced := rfl
@[simp] theorem State.beginOp_mair (s : State) :
    (s.beginOp).mair = s.mair := rfl
@[simp] theorem State.beginOp_tcr (s : State) :
    (s.beginOp).tcr = s.tcr := rfl
@[simp] theorem State.beginOp_ttbr (s : State) :
    (s.beginOp).ttbr = s.ttbr := rfl
@[simp] theorem State.beginOp_txmb (s : State) :
    (s.beginOp).txmb = s.txmb := rfl
@[simp] theorem State.beginOp_rxmb (s : State) :
    (s.beginOp).rxmb = s.rxmb := rfl
@[simp] theorem State.beginOp_rxfifo (s : State) :
    (s.beginOp).rxfifo = s.rxfifo := rfl
@[simp] theorem State.beginOp_cfifo (s : State) :
    (s.beginOp).cfifo = s.cfifo := rfl
@[simp] theorem State.beginOp_inputs (s : State) :
    (s.beginOp).inputs = s.inputs := rfl
@[simp] theorem State.beginOp_rsp (s : State) :
    (s.beginOp).rsp = s.rsp := rfl
@[simp] theorem State.beginOp_walkerSees (s : State) :
    (s.beginOp).walkerSees = s.walkerSees := rfl
@[simp] theorem State.beginOp_draws (s : State) :
    (s.beginOp).draws = s.draws := rfl

/-! ### Fields after activation -/

@[simp] theorem State.activate_cfg (s : State) :
    (s.activate).cfg = s.cfg := rfl
@[simp] theorem State.activate_rl (s : State) :
    (s.activate).rl = s.rl := rfl
@[simp] theorem State.activate_tm (s : State) :
    (s.activate).tm = s.tm := rfl
@[simp] theorem State.activate_unsynced (s : State) :
    (s.activate).unsynced = [] := rfl
@[simp] theorem State.activate_opWindow (s : State) :
    (s.activate).opWindow = s.opWindow := rfl
@[simp] theorem State.activate_mair (s : State) :
    (s.activate).mair = s.cfg.mairValue := rfl
@[simp] theorem State.activate_tcr (s : State) :
    (s.activate).tcr = s.cfg.tcrValue := rfl
@[simp] theorem State.activate_ttbr (s : State) :
    (s.activate).ttbr = s.cfg.l1Base ||| 1 := rfl
@[simp] theorem State.activate_txmb (s : State) :
    (s.activate).txmb = s.txmb := rfl
@[simp] theorem State.activate_rxmb (s : State) :
    (s.activate).rxmb = s.rxmb := rfl
@[simp] theorem State.activate_rxfifo (s : State) :
    (s.activate).rxfifo = s.rxfifo := rfl
@[simp] theorem State.activate_cfifo (s : State) :
    (s.activate).cfifo = s.cfifo := rfl
@[simp] theorem State.activate_inputs (s : State) :
    (s.activate).inputs = s.inputs := rfl
@[simp] theorem State.activate_rsp (s : State) :
    (s.activate).rsp = s.rsp := rfl
@[simp] theorem State.activate_walkerSees (s : State) :
    (s.activate).walkerSees = s.walkerSees := rfl
@[simp] theorem State.activate_draws (s : State) :
    (s.activate).draws = s.draws := rfl

/-! ### Fields after writing a transmit buffer -/

@[simp] theorem State.setTxmb_cfg (s : State) (h : Nat) (b : TxBuffer) :
    (s.setTxmb h b).cfg = s.cfg := rfl
@[simp] theorem State.setTxmb_rl (s : State) (h : Nat) (b : TxBuffer) :
    (s.setTxmb h b).rl = s.rl := rfl
@[simp] theorem State.setTxmb_tm (s : State) (h : Nat) (b : TxBuffer) :
    (s.setTxmb h b).tm = s.tm := rfl
@[simp] theorem State.setTxmb_unsynced (s : State) (h : Nat) (b : TxBuffer) :
    (s.setTxmb h b).unsynced = s.unsynced := rfl
@[simp] theorem State.setTxmb_opWindow (s : State) (h : Nat) (b : TxBuffer) :
    (s.setTxmb h b).opWindow = s.opWindow := rfl
@[simp] theorem State.setTxmb_mair (s : State) (h : Nat) (b : TxBuffer) :
    (s.setTxmb h b).mair = s.mair := rfl
@[simp] theorem State.setTxmb_tcr (s : State) (h : Nat) (b : TxBuffer) :
    (s.setTxmb h b).tcr = s.tcr := rfl
@[simp] theorem State.setTxmb_ttbr (s : State) (h : Nat) (b : TxBuffer) :
    (s.setTxmb h b).ttbr = s.ttbr := rfl
@[simp] theorem State.setTxmb_txmb (s : State) (h : Nat) (b : TxBuffer) :
    (s.setTxmb h b).txmb = s.txmb.set h b := rfl
@[simp] theorem State.setTxmb_rxmb (s : State) (h : Nat) (b : TxBuffer) :
    (s.setTxmb h b).rxmb = s.rxmb := rfl
@[simp] theorem State.setTxmb_rxfifo (s : State) (h : Nat) (b : TxBuffer) :
    (s.setTxmb h b).rxfifo = s.rxfifo := rfl
@[simp] theorem State.setTxmb_cfifo (s : State) (h : Nat) (b : TxBuffer) :
    (s.setTxmb h b).cfifo = s.cfifo := rfl
@[simp] theorem State.setTxmb_inputs (s : State) (h : Nat) (b : TxBuffer) :
    (s.setTxmb h b).inputs = s.inputs := rfl
@[simp] theorem State.setTxmb_rsp (s : State) (h : Nat) (b : TxBuffer) :
    (s.setTxmb h b).rsp = s.rsp := rfl
@[simp] theorem State.setTxmb_walkerSees (s : State) (h : Nat) (b : TxBuffer) :
    (s.setTxmb h b).walkerSees = s.walkerSees := rfl
@[simp] theorem State.setTxmb_draws (s : State) (h : Nat) (b : TxBuffer) :
    (s.setTxmb h b).draws = s.draws := rfl

/-! ### Fields after writing a receive buffer -/

@[simp] theorem State.setRxmb_cfg (s : State) (h : Nat) (b : RxBuffer) :
    (s.setRxmb h b).cfg = s.cfg := rfl
@[simp] theorem State.setRxmb_rl (s : State) (h : Nat) (b : RxBuffer) :
    (s.setRxmb h b).rl = s.rl := rfl
@[simp] theorem State.setRxmb_tm (s : State) (h : Nat) (b : RxBuffer) :
    (s.setRxmb h b).tm = s.tm := rfl
@[simp] theorem State.setRxmb_unsynced (s : State) (h : Nat) (b : RxBuffer) :
    (s.setRxmb h b).unsynced = s.unsynced := rfl
@[simp] theorem State.setRxmb_opWindow (s : State) (h : Nat) (b : RxBuffer) :
    (s.setRxmb h b).opWindow = s.opWindow := rfl
@[simp] theorem State.setRxmb_mair (s : State) (h : Nat) (b : RxBuffer) :
    (s.setRxmb h b).mair = s.mair := rfl
@[simp] theorem State.setRxmb_tcr (s : State) (h : Nat) (b : RxBuffer) :
    (s.setRxmb h b).tcr = s.tcr := rfl
@[simp] theorem State.setRxmb_ttbr (s : State) (h : Nat) (b : RxBuffer) :
    (s.setRxmb h b).ttbr = s.ttbr := rfl
@[simp] theorem State.setRxmb_txmb (s : State) (h : Nat) (b : RxBuffer) :
    (s.setRxmb h b).txmb = s.txmb := rfl
@[simp] theorem State.setRxmb_rxmb (s : State) (h : Nat) (b : RxBuffer) :
    (s.setRxmb h b).rxmb = s.rxmb.set h b := rfl
@[simp] theorem State.setRxmb_rxfifo (s : State) (h : Nat) (b : RxBuffer) :
    (s.setRxmb h b).rxfifo = s.rxfifo := rfl
@[simp] theorem State.setRxmb_cfifo (s : State) (h : Nat) (b : RxBuffer) :
    (s.setRxmb h b).cfifo = s.cfifo := rfl
@[simp] theorem State.setRxmb_inputs (s : State) (h : Nat) (b : RxBuffer) :
    (s.setRxmb h b).inputs = s.inputs := rfl
@[simp] theorem State.setRxmb_rsp (s : State) (h : Nat) (b : RxBuffer) :
    (s.setRxmb h b).rsp = s.rsp := rfl
@[simp] theorem State.setRxmb_walkerSees (s : State) (h : Nat) (b : RxBuffer) :
    (s.setRxmb h b).walkerSees = s.walkerSees := rfl
@[simp] theorem State.setRxmb_draws (s : State) (h : Nat) (b : RxBuffer) :
    (s.setRxmb h b).draws = s.draws := rfl

/-! ### Fields after writing an RX FIFO -/

@[simp] theorem State.setRxFifo_cfg (s : State) (k : Nat) (q : List Image) :
    (s.setRxFifo k q).cfg = s.cfg := rfl
@[simp] theorem State.setRxFifo_rl (s : State) (k : Nat) (q : List Image) :
    (s.setRxFifo k q).rl = s.rl := rfl
@[simp] theorem State.setRxFifo_tm (s : State) (k : Nat) (q : List Image) :
    (s.setRxFifo k q).tm = s.tm := rfl
@[simp] theorem State.setRxFifo_unsynced (s : State) (k : Nat) (q : List Image) :
    (s.setRxFifo k q).unsynced = s.unsynced := rfl
@[simp] theorem State.setRxFifo_opWindow (s : State) (k : Nat) (q : List Image) :
    (s.setRxFifo k q).opWindow = s.opWindow := rfl
@[simp] theorem State.setRxFifo_mair (s : State) (k : Nat) (q : List Image) :
    (s.setRxFifo k q).mair = s.mair := rfl
@[simp] theorem State.setRxFifo_tcr (s : State) (k : Nat) (q : List Image) :
    (s.setRxFifo k q).tcr = s.tcr := rfl
@[simp] theorem State.setRxFifo_ttbr (s : State) (k : Nat) (q : List Image) :
    (s.setRxFifo k q).ttbr = s.ttbr := rfl
@[simp] theorem State.setRxFifo_txmb (s : State) (k : Nat) (q : List Image) :
    (s.setRxFifo k q).txmb = s.txmb := rfl
@[simp] theorem State.setRxFifo_rxmb (s : State) (k : Nat) (q : List Image) :
    (s.setRxFifo k q).rxmb = s.rxmb := rfl
@[simp] theorem State.setRxFifo_rxfifo (s : State) (k : Nat) (q : List Image) :
    (s.setRxFifo k q).rxfifo = s.rxfifo.set k q := rfl
@[simp] theorem State.setRxFifo_cfifo (s : State) (k : Nat) (q : List Image) :
    (s.setRxFifo k q).cfifo = s.cfifo := rfl
@[simp] theorem State.setRxFifo_inputs (s : State) (k : Nat) (q : List Image) :
    (s.setRxFifo k q).inputs = s.inputs := rfl
@[simp] theorem State.setRxFifo_rsp (s : State) (k : Nat) (q : List Image) :
    (s.setRxFifo k q).rsp = s.rsp := rfl
@[simp] theorem State.setRxFifo_walkerSees (s : State) (k : Nat) (q : List Image) :
    (s.setRxFifo k q).walkerSees = s.walkerSees := rfl
@[simp] theorem State.setRxFifo_draws (s : State) (k : Nat) (q : List Image) :
    (s.setRxFifo k q).draws = s.draws := rfl

/-! ### Fields after writing a common FIFO -/

@[simp] theorem State.setCFifo_cfg (s : State) (k : Nat) (f : CommonFifo) :
    (s.setCFifo k f).cfg = s.cfg := rfl
@[simp] theorem State.setCFifo_rl (s : State) (k : Nat) (f : CommonFifo) :
    (s.setCFifo k f).rl = s.rl := rfl
@[simp] theorem State.setCFifo_tm (s : State) (k : Nat) (f : CommonFifo) :
    (s.setCFifo k f).tm = s.tm := rfl
@[simp] theorem State.setCFifo_unsynced (s : State) (k : Nat) (f : CommonFifo) :
    (s.setCFifo k f).unsynced = s.unsynced := rfl
@[simp] theorem State.setCFifo_opWindow (s : State) (k : Nat) (f : CommonFifo) :
    (s.setCFifo k f).opWindow = s.opWindow := rfl
@[simp] theorem State.setCFifo_mair (s : State) (k : Nat) (f : CommonFifo) :
    (s.setCFifo k f).mair = s.mair := rfl
@[simp] theorem State.setCFifo_tcr (s : State) (k : Nat) (f : CommonFifo) :
    (s.setCFifo k f).tcr = s.tcr := rfl
@[simp] theorem State.setCFifo_ttbr (s : State) (k : Nat) (f : CommonFifo) :
    (s.setCFifo k f).ttbr = s.ttbr := rfl
@[simp] theorem State.setCFifo_txmb (s : State) (k : Nat) (f : CommonFifo) :
    (s.setCFifo k f).txmb = s.txmb := rfl
@[simp] theorem State.setCFifo_rxmb (s : State) (k : Nat) (f : CommonFifo) :
    (s.setCFifo k f).rxmb = s.rxmb := rfl
@[simp] theorem State.setCFifo_rxfifo (s : State) (k : Nat) (f : CommonFifo) :
    (s.setCFifo k f).rxfifo = s.rxfifo := rfl
@[simp] theorem State.setCFifo_cfifo (s : State) (k : Nat) (f : CommonFifo) :
    (s.setCFifo k f).cfifo = s.cfifo.set k f := rfl
@[simp] theorem State.setCFifo_inputs (s : State) (k : Nat) (f : CommonFifo) :
    (s.setCFifo k f).inputs = s.inputs := rfl
@[simp] theorem State.setCFifo_rsp (s : State) (k : Nat) (f : CommonFifo) :
    (s.setCFifo k f).rsp = s.rsp := rfl
@[simp] theorem State.setCFifo_walkerSees (s : State) (k : Nat) (f : CommonFifo) :
    (s.setCFifo k f).walkerSees = s.walkerSees := rfl
@[simp] theorem State.setCFifo_draws (s : State) (k : Nat) (f : CommonFifo) :
    (s.setCFifo k f).draws = s.draws := rfl

/-! ### Fields at reset -/

@[simp] theorem State.resetOf_cfg (c : Cfg) (rl : List Region) (tm : Memory) :
    (State.resetOf c rl tm).cfg = c := rfl
@[simp] theorem State.resetOf_rl (c : Cfg) (rl : List Region) (tm : Memory) :
    (State.resetOf c rl tm).rl = rl := rfl
@[simp] theorem State.resetOf_tm (c : Cfg) (rl : List Region) (tm : Memory) :
    (State.resetOf c rl tm).tm = tm := rfl
@[simp] theorem State.resetOf_unsynced (c : Cfg) (rl : List Region) (tm : Memory) :
    (State.resetOf c rl tm).unsynced = [] := rfl
@[simp] theorem State.resetOf_opWindow (c : Cfg) (rl : List Region) (tm : Memory) :
    (State.resetOf c rl tm).opWindow = [] := rfl
@[simp] theorem State.resetOf_mair (c : Cfg) (rl : List Region) (tm : Memory) :
    (State.resetOf c rl tm).mair = 0 := rfl
@[simp] theorem State.resetOf_tcr (c : Cfg) (rl : List Region) (tm : Memory) :
    (State.resetOf c rl tm).tcr = 0 := rfl
@[simp] theorem State.resetOf_ttbr (c : Cfg) (rl : List Region) (tm : Memory) :
    (State.resetOf c rl tm).ttbr = 0 := rfl
@[simp] theorem State.resetOf_txmb (c : Cfg) (rl : List Region) (tm : Memory) :
    (State.resetOf c rl tm).txmb = List.replicate (bankSize c .mb) ⟨zeroImage, false⟩ := rfl
@[simp] theorem State.resetOf_rxmb (c : Cfg) (rl : List Region) (tm : Memory) :
    (State.resetOf c rl tm).rxmb = List.replicate (bankSize c .mb) ⟨zeroImage, false⟩ := rfl
@[simp] theorem State.resetOf_rxfifo (c : Cfg) (rl : List Region) (tm : Memory) :
    (State.resetOf c rl tm).rxfifo = List.replicate (bankSize c .rxFifo) [] := rfl
@[simp] theorem State.resetOf_cfifo (c : Cfg) (rl : List Region) (tm : Memory) :
    (State.resetOf c rl tm).cfifo = List.replicate (bankSize c .cFifo) ⟨[], []⟩ := rfl
@[simp] theorem State.resetOf_inputs (c : Cfg) (rl : List Region) (tm : Memory) :
    (State.resetOf c rl tm).inputs = [] := rfl
@[simp] theorem State.resetOf_rsp (c : Cfg) (rl : List Region) (tm : Memory) :
    (State.resetOf c rl tm).rsp = none := rfl
@[simp] theorem State.resetOf_walkerSees (c : Cfg) (rl : List Region) (tm : Memory) :
    (State.resetOf c rl tm).walkerSees = none := rfl
@[simp] theorem State.resetOf_draws (c : Cfg) (rl : List Region) (tm : Memory) :
    (State.resetOf c rl tm).draws = 0 := rfl

end Sys2Proof.Machine
end

