-- ==== Sys2Proof/Laws/Memory.lean ====
section
/-! SUPPORT. The laws of `TM`: read after write, and the canonical form, for bytes and for slots. -/

namespace Sys2Proof.Machine

/-! ### Bytes -/

theorem Memory.byte_erase_same (m : Memory) (a : Nat) : (m.erase a).byte a = unwritten := by
  induction m with
  | nil => rfl
  | cons c m ih =>
    obtain ⟨a', b⟩ := c
    by_cases h : a' = a
    · simpa [Memory.erase, h] using ih
    · simpa [Memory.erase, Memory.byte, h] using ih

theorem Memory.byte_erase_other (m : Memory) {a a' : Nat} (h : a' ≠ a) :
    (m.erase a).byte a' = m.byte a' := by
  induction m with
  | nil => rfl
  | cons c m ih =>
    obtain ⟨x, b⟩ := c
    by_cases hx : x = a
    · subst hx
      simpa [Memory.erase, Memory.byte, Ne.symm h] using ih
    · by_cases hy : x = a'
      · simp [Memory.erase, Memory.byte, hy, h]
      · simpa [Memory.erase, Memory.byte, hx, hy] using ih

theorem Memory.byte_insertCell_same (m : Memory) (a : Nat) (b : Byte)
    (h : ∀ c ∈ m, c.1 ≠ a) : (Memory.insertCell a b m).byte a = b := by
  induction m with
  | nil => simp [Memory.insertCell, Memory.byte]
  | cons c m ih =>
    obtain ⟨x, y⟩ := c
    have hx : x ≠ a := h (x, y) (by simp)
    simp only [Memory.insertCell]
    split
    · simp [Memory.byte]
    · simpa [Memory.byte, hx] using ih fun c hc => h c (by simp [hc])

theorem Memory.byte_insertCell_other (m : Memory) {a a' : Nat} (b : Byte) (h : a' ≠ a) :
    (Memory.insertCell a b m).byte a' = m.byte a' := by
  induction m with
  | nil => simp [Memory.insertCell, Memory.byte, Ne.symm h]
  | cons c m ih =>
    obtain ⟨x, y⟩ := c
    simp only [Memory.insertCell]
    split
    · simp [Memory.byte, Ne.symm h]
    · simp only [Memory.byte]
      split
      · rfl
      · exact ih

/-- Reading the byte that was written gives what was written. -/
@[simp] theorem Memory.byte_setByte_same (m : Memory) (a : Nat) (b : Byte) :
    (m.setByte a b).byte a = b := by
  unfold Memory.setByte
  split
  · rename_i h; rw [Memory.byte_erase_same, h]
  · exact Memory.byte_insertCell_same _ _ _ (by simp [Memory.erase])

/-- Writing a byte leaves every other byte alone. -/
theorem Memory.byte_setByte_other (m : Memory) {a a' : Nat} (b : Byte) (h : a' ≠ a) :
    (m.setByte a b).byte a' = m.byte a' := by
  unfold Memory.setByte
  split
  · exact Memory.byte_erase_other m h
  · rw [Memory.byte_insertCell_other _ _ h, Memory.byte_erase_other m h]

/-! ### The canonical form -/

theorem Memory.wfFrom_le {lo lo' : Nat} (h : lo' ≤ lo) {m : Memory} (hm : Memory.wfFrom lo m) :
    Memory.wfFrom lo' m := by
  cases m with
  | nil => rfl
  | cons c m =>
    obtain ⟨a, b⟩ := c
    simp only [Memory.wfFrom, Bool.and_eq_true, decide_eq_true_eq] at hm ⊢
    exact ⟨⟨⟨by omega, hm.1.1.2⟩, hm.1.2⟩, hm.2⟩

theorem Memory.wfFrom_erase (m : Memory) (a lo : Nat) (hm : Memory.wfFrom lo m) :
    Memory.wfFrom lo (m.erase a) := by
  induction m generalizing lo with
  | nil => rfl
  | cons c m ih =>
    obtain ⟨x, y⟩ := c
    simp only [Memory.wfFrom, Bool.and_eq_true, decide_eq_true_eq] at hm
    by_cases hx : x = a
    · have := Memory.wfFrom_le (by omega : lo ≤ x + 1) (ih _ hm.2)
      simpa [Memory.erase, hx] using this
    · have := ih _ hm.2
      simp only [Memory.erase] at this
      have hkeep : Memory.erase ((x, y) :: m) a = (x, y) :: m.filter fun c => c.1 != a := by
        simp [Memory.erase, hx]
      rw [hkeep]
      simp only [Memory.wfFrom, Bool.and_eq_true, decide_eq_true_eq]
      exact ⟨hm.1, this⟩

theorem Memory.wfFrom_insertCell (m : Memory) (a lo : Nat) (b : Byte) (hb : b ≠ unwritten)
    (ha : a < 2 ^ 64) (hlo : lo ≤ a) (hne : ∀ c ∈ m, c.1 ≠ a) (hm : Memory.wfFrom lo m) :
    Memory.wfFrom lo (Memory.insertCell a b m) := by
  induction m generalizing lo with
  | nil =>
    simp only [Memory.insertCell, Memory.wfFrom, Bool.and_eq_true, decide_eq_true_eq, bne_iff_ne]
    exact ⟨⟨⟨hlo, ha⟩, hb⟩, trivial⟩
  | cons c m ih =>
    obtain ⟨x, y⟩ := c
    have hx : x ≠ a := hne (x, y) (by simp)
    simp only [Memory.wfFrom, Bool.and_eq_true, decide_eq_true_eq] at hm
    simp only [Memory.insertCell]
    split
    · rename_i hlt
      simp only [Memory.wfFrom, Bool.and_eq_true, decide_eq_true_eq, bne_iff_ne]
      exact ⟨⟨⟨hlo, ha⟩, hb⟩, ⟨⟨by omega, hm.1.1.2⟩, by simpa using hm.1.2⟩, hm.2⟩
    · rename_i hge
      simp only [Memory.wfFrom, Bool.and_eq_true, decide_eq_true_eq]
      exact ⟨hm.1, ih (x + 1) (by omega) (fun c hc => hne c (by simp [hc])) hm.2⟩

/-- Writing a byte keeps the canonical form. -/
theorem Memory.wf_setByte (m : Memory) (a : Nat) (b : Byte) (ha : a < 2 ^ 64) (hm : m.wf) :
    (m.setByte a b).wf := by
  unfold Memory.setByte Memory.wf at *
  split
  · exact Memory.wfFrom_erase m a 0 hm
  · rename_i hb
    exact Memory.wfFrom_insertCell _ a 0 b hb ha (Nat.zero_le _) (by simp [Memory.erase])
      (Memory.wfFrom_erase m a 0 hm)

/-! ### Slots -/

theorem Memory.byte_setBytes_other (m : Memory) (a x : Nat) (v : Word64) (n : Nat)
    (h : x < a ∨ a + n ≤ x) : (m.setBytes a v n).byte x = m.byte x := by
  induction n generalizing m with
  | zero => rfl
  | succ n ih =>
    rw [Memory.setBytes, ih _ (by omega), Memory.byte_setByte_other _ _ (by omega)]

theorem Memory.byte_setBytes_inside (m : Memory) (a : Nat) (v : Word64) (n i : Nat) (h : i < n) :
    (m.setBytes a v n).byte (a + i) = byteOf v i := by
  induction n generalizing m with
  | zero => omega
  | succ n ih =>
    rw [Memory.setBytes]
    by_cases hi : i < n
    · exact ih _ hi
    · have : i = n := by omega
      subst this
      rw [Memory.byte_setBytes_other _ _ _ _ _ (by omega), Memory.byte_setByte_same]

theorem Memory.wf_setBytes (m : Memory) (a : Nat) (v : Word64) (n : Nat) (ha : a + n ≤ 2 ^ 64)
    (hm : m.wf) : (m.setBytes a v n).wf := by
  induction n generalizing m with
  | zero => exact hm
  | succ n ih =>
    rw [Memory.setBytes]
    exact ih _ (by omega) (Memory.wf_setByte _ _ _ (by omega) hm)

/-- Byte `i` of a stored slot is byte `i` of the value, little-endian. -/
theorem Memory.byte_setSlot_inside (m : Memory) (a : Nat) (v : Word64) (i : Nat) (h : i < 8) :
    (m.setSlot a v).byte (a + i) = byteOf v i :=
  Memory.byte_setBytes_inside m a v 8 i h

/-- A slot store leaves every byte outside its eight alone. -/
theorem Memory.byte_setSlot_other (m : Memory) (a x : Nat) (v : Word64) (h : x < a ∨ a + 8 ≤ x) :
    (m.setSlot a v).byte x = m.byte x :=
  Memory.byte_setBytes_other m a x v 8 h

/-- A slot store keeps the canonical form. -/
theorem Memory.wf_setSlot (m : Memory) (a : Nat) (v : Word64) (ha : a + 8 ≤ 2 ^ 64) (hm : m.wf) :
    (m.setSlot a v).wf :=
  Memory.wf_setBytes m a v 8 ha hm

/-- The eight bytes of a value put together again. -/
theorem byteOf_append (v : Word64) :
    byteOf v 7 ++ byteOf v 6 ++ byteOf v 5 ++ byteOf v 4 ++ byteOf v 3 ++ byteOf v 2 ++ byteOf v 1
      ++ byteOf v 0 = v := by
  apply BitVec.eq_of_getLsbD_eq
  intro i hi
  simp only [byteOf, BitVec.getLsbD_append, BitVec.getLsbD_extractLsb']
  interval_cases i <;> simp

/-- Reading the slot that was stored gives what was stored. -/
@[simp] theorem Memory.slot_setSlot_same (m : Memory) (a : Nat) (v : Word64) :
    (m.setSlot a v).slot a = v := by
  have h := Memory.byte_setSlot_inside m a v
  have h0 := h 0 (by omega)
  simp only [Nat.add_zero] at h0
  unfold Memory.slot
  rw [h 7 (by omega), h 6 (by omega), h 5 (by omega), h 4 (by omega), h 3 (by omega),
    h 2 (by omega), h 1 (by omega), h0]
  exact byteOf_append v

/-- A slot store leaves a slot that does not overlap it alone. -/
theorem Memory.slot_setSlot_other (m : Memory) (a x : Nat) (v : Word64)
    (h : x + 8 ≤ a ∨ a + 8 ≤ x) : (m.setSlot a v).slot x = m.slot x := by
  unfold Memory.slot
  have h' : ∀ i, i < 8 → (m.setSlot a v).byte (x + i) = m.byte (x + i) := fun i hi =>
    Memory.byte_setSlot_other m a (x + i) v (by omega)
  have h0 := h' 0 (by omega)
  simp only [Nat.add_zero] at h0
  rw [h' 7 (by omega), h' 6 (by omega), h' 5 (by omega), h' 4 (by omega), h' 3 (by omega),
    h' 2 (by omega), h' 1 (by omega), h0]

end Sys2Proof.Machine
end

