-- ==== Sys2Proof/Laws/Ops.lean ====
section
/-! SUPPORT. One lemma per shared operation that says once what it can do; later proofs cite these. -/

namespace Sys2Proof.Machine

/-! ### Putting an operation together -/

@[simp] theorem Progress.andThen_ok (s : State) (k : State → Progress) :
    (Progress.ok s).andThen k = k s := rfl

@[simp] theorem Progress.andThen_raised (e : Status) (s : State) (k : State → Progress) :
    (Progress.raised e s).andThen k = .raised e s := rfl

@[simp] theorem Progress.andThen_fault (f : Fault) (k : State → Progress) :
    (Progress.fault f).andThen k = .fault f := rfl

@[simp] theorem Progress.andThen_refused (r : Refusal) (k : State → Progress) :
    (Progress.refused r).andThen k = .refused r := rfl

/-- A sequence goes on exactly when both parts do. -/
theorem Progress.andThen_eq_ok {p : Progress} {k : State → Progress} {t : State} :
    p.andThen k = .ok t ↔ ∃ s, p = .ok s ∧ k s = .ok t := by
  cases p <;> simp

/-- A sequence raises an error in its first part, or in its second. -/
theorem Progress.andThen_eq_raised {p : Progress} {k : State → Progress} {e : Status} {t : State} :
    p.andThen k = .raised e t ↔ p = .raised e t ∨ ∃ s, p = .ok s ∧ k s = .raised e t := by
  cases p <;> simp

@[simp] theorem Progress.answer_ok (s : State) :
    (Progress.ok s).answer = .next (s.respond .ok .none) := rfl

@[simp] theorem Progress.answer_raised (e : Status) (s : State) :
    (Progress.raised e s).answer = .next (s.raise e .none) := rfl

@[simp] theorem Progress.answer_fault (f : Fault) : (Progress.fault f).answer = .fault f := rfl

@[simp] theorem Progress.answer_refused (r : Refusal) :
    (Progress.refused r).answer = .refused r := rfl

/-- An operation without result fields has a next state when it goes to its end or raises. -/
theorem Progress.answer_eq_next {p : Progress} {t : State} :
    p.answer = .next t ↔ (∃ s, p = .ok s ∧ t = s.respond .ok .none)
      ∨ ∃ e s, p = .raised e s ∧ t = s.raise e .none := by
  cases p <;> simp [eq_comm]

/-! ### Slots -/

@[simp] theorem memRead_respond (s : State) (e : Status) (r : Result) (a : Word64) :
    memRead (s.respond e r) a = memRead s a := rfl

@[simp] theorem memRead_raise (s : State) (e : Status) (sh : ResultShape) (a : Word64) :
    memRead (s.raise e sh) a = memRead s a := rfl

@[simp] theorem memRead_barrier (s : State) (a : Word64) : memRead s.barrier a = memRead s a := rfl

@[simp] theorem memRead_storeSlot_same (s : State) (a v : Word64) :
    memRead (s.storeSlot a v) a = v := by
  simp [memRead]

/-- Two different slots do not overlap. -/
theorem memRead_storeSlot_other (s : State) {a b : Word64} (v : Word64) (ha : a.toNat % 8 = 0)
    (hb : b.toNat % 8 = 0) (h : b ≠ a) : memRead (s.storeSlot a v) b = memRead s b := by
  have hne : b.toNat ≠ a.toNat := fun e => h (BitVec.eq_of_toNat_eq e)
  simp only [memRead, State.storeSlot_tm]
  exact Memory.slot_setSlot_other _ _ _ _ (by omega)

/-- Everything `MemWrite` can do. -/
theorem memWrite_cases (a v : Word64) (s : State) :
    (a.toNat % 8 = 0 ∧ slotBacked s.cfg a = true ∧ memWrite a v s = .ok (s.storeSlot a v))
      ∨ (a.toNat % 8 ≠ 0 ∧ memWrite a v s = .refused .misalignedSlot)
      ∨ (a.toNat % 8 = 0 ∧ slotBacked s.cfg a = false ∧ memWrite a v s = .fault .unbackedSlot) := by
  unfold memWrite
  by_cases h : a.toNat % 8 = 0
  · cases hb : slotBacked s.cfg a <;> simp [h]
  · simp [h]

/-- When `MemWrite` goes on, and with which state. -/
theorem memWrite_eq_ok {a v : Word64} {s t : State} :
    memWrite a v s = .ok t
      ↔ a.toNat % 8 = 0 ∧ slotBacked s.cfg a = true ∧ t = s.storeSlot a v := by
  rcases memWrite_cases a v s with ⟨h1, h2, h3⟩ | ⟨h1, h3⟩ | ⟨h1, h2, h3⟩ <;> rw [h3]
  · simp [h1, h2, eq_comm]
  · simp [h1]
  · simp [h2]

/-- `MemWrite` raises no error. -/
theorem memWrite_ne_raised (a v : Word64) (s : State) (e : Status) (t : State) :
    memWrite a v s ≠ .raised e t := by
  rcases memWrite_cases a v s with ⟨_, _, h⟩ | ⟨_, h⟩ | ⟨_, _, h⟩ <;> simp [h]

/-! ### Filling slots -/

/-- A fill raises no error: every check comes before the first store. -/
theorem fillSlots_ne_raised (base : Word64) (slot : Nat) (ds : List Word64) (s : State) (e : Status)
    (t : State) : fillSlots base slot ds s ≠ .raised e t := by
  induction ds generalizing slot s with
  | nil => simp [fillSlots]
  | cons d ds ih =>
    simp only [fillSlots, ne_eq, Progress.andThen_eq_raised, not_or, not_exists, not_and]
    exact ⟨memWrite_ne_raised _ _ _ _ _, fun s' _ => ih _ s'⟩

/-- What a fill may change. -/
theorem fillSlots_frame {base : Word64} {slot : Nat} {ds : List Word64} {s t : State}
    (h : fillSlots base slot ds s = .ok t) :
    t = { s with tm := t.tm, unsynced := t.unsynced, opWindow := t.opWindow } := by
  induction ds generalizing slot s with
  | nil => simp only [fillSlots, Progress.ok.injEq] at h; subst h; rfl
  | cons d ds ih =>
    obtain ⟨s', h1, h2⟩ := Progress.andThen_eq_ok.1 h
    obtain ⟨-, -, rfl⟩ := memWrite_eq_ok.1 h1
    rw [ih h2]
    rfl

/-- A fill goes on when every slot it stores to is aligned and backed. -/
theorem fillSlots_completes {base : Word64} {slot : Nat} {ds : List Word64} {s : State}
    (h : ∀ i < ds.length, (slotAddr base (slot + i)).toNat % 8 = 0
      ∧ slotBacked s.cfg (slotAddr base (slot + i)) = true) :
    ∃ t, fillSlots base slot ds s = .ok t := by
  induction ds generalizing slot s with
  | nil => exact ⟨s, rfl⟩
  | cons d ds ih =>
    have h0 := h 0 (by simp)
    simp only [Nat.add_zero] at h0
    have hw := memWrite_eq_ok.2 (And.intro h0.1 (And.intro h0.2 (rfl : s.storeSlot _ d = _)))
    simp only [fillSlots, hw, Progress.andThen_ok]
    refine ih fun i hi => ?_
    have := h (i + 1) (by simp; omega)
    simpa [Nat.add_assoc, Nat.add_comm 1 i] using this

/-- A fill leaves every byte outside its slots alone. -/
theorem fillSlots_byte_other {base : Word64} {slot : Nat} {ds : List Word64} {s t : State} {x : Nat}
    (h : fillSlots base slot ds s = .ok t)
    (hx : ∀ i < ds.length, x < (slotAddr base (slot + i)).toNat
      ∨ (slotAddr base (slot + i)).toNat + 8 ≤ x) : t.tm.byte x = s.tm.byte x := by
  induction ds generalizing slot s with
  | nil => simp only [fillSlots, Progress.ok.injEq] at h; rw [h]
  | cons d ds ih =>
    obtain ⟨s', h1, h2⟩ := Progress.andThen_eq_ok.1 h
    obtain ⟨-, -, rfl⟩ := memWrite_eq_ok.1 h1
    rw [ih h2 fun i hi => by
      have := hx (i + 1) (by simp; omega)
      simpa [Nat.add_assoc, Nat.add_comm 1 i] using this]
    have := hx 0 (by simp)
    exact Memory.byte_setSlot_other _ _ _ _ (by simpa using this)

/-- A fill keeps the canonical form of `TM`. -/
theorem fillSlots_wf {base : Word64} {slot : Nat} {ds : List Word64} {s t : State}
    (h : fillSlots base slot ds s = .ok t) (hs : s.tm.wf) : t.tm.wf := by
  induction ds generalizing slot s with
  | nil => simp only [fillSlots, Progress.ok.injEq] at h; rwa [← h]
  | cons d ds ih =>
    obtain ⟨s', h1, h2⟩ := Progress.andThen_eq_ok.1 h
    obtain ⟨ha, -, rfl⟩ := memWrite_eq_ok.1 h1
    exact ih h2 (Memory.wf_setSlot _ _ _ (by omega) hs)

/-! ### Checks -/

/-- The level an operand names. -/
theorem levelUpTo_eq_some {hi : Nat} {level : Byte} {l : Level} :
    levelUpTo hi level = some l ↔ level.toNat ≤ hi ∧ level.toNat = levelNumber l := by
  unfold levelUpTo
  by_cases h : level.toNat ≤ hi
  · rw [if_pos h]
    split <;> cases l <;> simp_all [levelNumber]
  · simp [h]

/-- When `CheckTable` passes, and with which level. -/
theorem checkTable_eq_some {hi : Nat} {r : TableRecord} {va : Word64} {l : Level} :
    checkTable hi r va = some l
      ↔ (r.level.toNat ≤ hi ∧ r.level.toNat = levelNumber l) ∧ r.baseVa.toNat ≤ va.toNat := by
  unfold checkTable
  rw [← levelUpTo_eq_some]
  cases levelUpTo hi r.level with
  | none => simp
  | some l' =>
    by_cases h : va.toNat < r.baseVa.toNat
    · simp [h]
    · simp [h, Nat.le_of_not_lt h]

/-- Everything `CheckAlign` can do. -/
theorem checkAlign_cases (l : Level) (vals : List Word64) (s : State) :
    (allAligned l vals = true ∧ checkAlign l vals s = .ok s)
      ∨ (allAligned l vals = false ∧ s.cfg.paramCheck = true
        ∧ checkAlign l vals s = .raised .invalidArgument s)
      ∨ (allAligned l vals = false ∧ s.cfg.paramCheck = false
        ∧ checkAlign l vals s = .refused .misalignedWithoutCheck) := by
  unfold checkAlign
  cases allAligned l vals <;> cases s.cfg.paramCheck <;> simp

/-- When PT.LINK's step goes on, and with which state. -/
theorem linkStep_eq_ok {r : TableRecord} {va child : Word64} {s t : State} :
    linkStep r va child s = .ok t
      ↔ ∃ l, checkTable (s.cfg.maxLevel.val - 1) r va = some l ∧ allAligned l [va] = true
        ∧ slotOf l r.baseVa va < entriesOf s.cfg l
        ∧ fillTable r.basePtr (slotOf l r.baseVa va) [linkDesc s.cfg child] s = .ok t := by
  unfold linkStep
  cases checkTable (s.cfg.maxLevel.val - 1) r va with
  | none => simp
  | some l =>
    rcases checkAlign_cases l [va] s with ⟨h, h'⟩ | ⟨h, -, h'⟩ | ⟨h, -, h'⟩ <;>
      simp only [h']
    · by_cases hs : entriesOf s.cfg l ≤ slotOf l r.baseVa va
      · simp [h, hs]
      · simp [h, hs, Nat.lt_of_not_le hs]
    · simp [h]
    · simp [h]

/-- When the step PT.MAP and PT.FAULT share goes on, and with which state. -/
theorem rangeStep_eq_ok {r : TableRecord} {va pa size : Word64} {descs : Level → Nat → List Word64}
    {s t : State} :
    rangeStep r va pa size descs s = .ok t
      ↔ ∃ l, checkTable s.cfg.maxLevel.val r va = some l ∧ allAligned l [va, pa, size] = true
        ∧ slotOf l r.baseVa va + slotCount l size ≤ entriesOf s.cfg l
        ∧ fillTable r.basePtr (slotOf l r.baseVa va) (descs l (slotCount l size)) s = .ok t := by
  unfold rangeStep
  cases checkTable s.cfg.maxLevel.val r va with
  | none => simp
  | some l =>
    rcases checkAlign_cases l [va, pa, size] s with ⟨h, h'⟩ | ⟨h, -, h'⟩ | ⟨h, -, h'⟩ <;>
      simp only [h']
    · by_cases hs : entriesOf s.cfg l < slotOf l r.baseVa va + slotCount l size
      · simp [h, hs]
      · simp [h, hs, Nat.le_of_not_lt hs]
    · simp [h]
    · simp [h]

/-- A fill's stores are followed by one barrier and change `TM` only. -/
theorem fillTable_eq_ok {base : Word64} {first : Nat} {ds : List Word64} {s t : State} :
    fillTable base first ds s = .ok t
      ↔ ∃ u, fillSlots base first ds s = .ok u ∧ t = u.barrier := by
  simp only [fillTable, Progress.andThen_eq_ok, Progress.ok.injEq, @eq_comm _ _ t]

@[simp] theorem blockRun_length (c : Cfg) (l : Level) (attr : Word64) (n : Nat) (p : Word64) :
    (blockRun c l attr n p).length = n := by
  induction n generalizing p with
  | zero => rfl
  | succ n ih => simp [blockRun, ih]

/-! ### Frame I/O -/

/-- Everything the checks on a frame and its placing can do. -/
theorem placeFrame_cases (frame : Frame) (old : Image) (place : Image → Progress) (s : State) :
    (checkFrame s.cfg frame = false ∧ placeFrame frame old place s = .raised .invalidArgument s)
      ∨ (checkFrame s.cfg frame = true ∧ idInRange s.cfg frame.id = false
        ∧ placeFrame frame old place s = .refused .idOutOfRange)
      ∨ (checkFrame s.cfg frame = true ∧ idInRange s.cfg frame.id = true
        ∧ encodeImage s.cfg frame old = none
        ∧ placeFrame frame old place s = .raised .invalidArgument s)
      ∨ ∃ img, checkFrame s.cfg frame = true ∧ idInRange s.cfg frame.id = true
        ∧ encodeImage s.cfg frame old = some img ∧ placeFrame frame old place s = place img := by
  unfold placeFrame
  cases checkFrame s.cfg frame <;> cases idInRange s.cfg frame.id <;>
    cases encodeImage s.cfg frame old <;> simp

/-- Everything the append to a common FIFO can do. -/
theorem appendCFifo_cases (h : Nat) (img : Image) (s : State) :
    (s.cfifo[h]? = none ∧ appendCFifo h img s = .fault .bufferAbsent)
      ∨ ∃ f, s.cfifo[h]? = some f
        ∧ ((queueFull s.cfg f.txq = true ∧ appendCFifo h img s = .refused .fifoFull)
          ∨ (queueFull s.cfg f.txq = false
            ∧ appendCFifo h img s = .ok (s.setCFifo h { f with txq := f.txq ++ [img] }))) := by
  unfold appendCFifo
  cases s.cfifo[h]? with
  | none => simp
  | some f => cases hq : queueFull s.cfg f.txq <;> simp [hq]

/-! ### Descriptor forms -/

/-- Everything reading a descriptor's form can answer. -/
theorem formOf_cases (c : Cfg) (l : Level) (d : Word64) :
    ((d.getLsbD 0 = false ∨ isReservedDesc c l d = true) ∧ formOf c l d = .fault)
      ∨ (d.getLsbD 0 = true ∧ hasLinkTag c l d = true ∧ formOf c l d = .link)
      ∨ (d.getLsbD 0 = true ∧ hasLinkTag c l d = false ∧ hasBlockTag c l d = true
        ∧ formOf c l d = .block) := by
  unfold formOf isReservedDesc
  cases d.getLsbD 0 <;> cases hasLinkTag c l d <;> cases hasBlockTag c l d <;> simp

end Sys2Proof.Machine
end

