-- ==== Sys2Proof/Laws/PerInstr.lean ====
section
/-! SUPPORT. A statement made per operation: the encoding of a well-formed operation has the width of its
format (`30_encoding.md` R81). -/

namespace Sys2Proof.Laws

@[simp] theorem fieldBits_length (w v : Nat) : (fieldBits w v).length = w := by
  induction w with
  | zero => rfl
  | succ w ih => simp [fieldBits, ih]

@[simp] theorem bitsOf_length {w : Nat} (v : BitVec w) : (bitsOf v).length = w := by simp [bitsOf]

@[simp] theorem bytesBits_length (l : List Byte) : (bytesBits l).length = 8 * l.length := by
  induction l with
  | nil => rfl
  | cons b l ih =>
    simp only [bytesBits] at ih
    simp [bytesBits, ih]
    omega

@[simp] theorem frame_bits_length (f : Frame) : f.bits.length = 557 := by simp [Frame.bits]

@[simp] theorem image_bits_length (m : Image) : m.bits.length = 608 := by simp [Image.bits]

@[simp] theorem region_bits_length (r : Region) : r.bits.length = 256 := by simp [Region.bits]

/-- A region record is four fields of `REGION_W` bits (`10_state.md` R28, `30_encoding.md` R96). -/
theorem region_bits_length_regionW (r : Region) :
    r.bits.length = 4 * Sys2Proof.Machine.regionW := by simp [Sys2Proof.Machine.regionW]

@[simp] theorem regions_bits_length (rs : List Region) :
    (rs.flatMap Region.bits).length = 256 * rs.length := by
  induction rs with
  | nil => rfl
  | cons r rs ih =>
    simp [ih]
    omega

/-- The `count` field of an operation; 0 where its format has none. -/
def regionCount : Instr → Nat
  | .ptBuild count _ => count.toNat
  | _ => 0

/-- The encoding of a well-formed operation has the width its `op` and `count` say. -/
def EncodeWidth.Statement (i : Instr) : Prop :=
  i.wf = true → (encode i).length = requestWidth i.opcode.toNat (regionCount i)

theorem EncodeWidth.pdFault :
    EncodeWidth.Statement (.pdFault) := fun _ => by
  simp [encode, Instr.operandBits, Instr.opcode, requestWidth]

theorem EncodeWidth.pdLink (addr : Word64) :
    EncodeWidth.Statement (.pdLink addr) := fun _ => by
  simp [encode, Instr.operandBits, Instr.opcode, requestWidth]

theorem EncodeWidth.pdBlock (level : Byte) (addr attr : Word64) :
    EncodeWidth.Statement (.pdBlock level addr attr) := fun _ => by
  simp [encode, Instr.operandBits, Instr.opcode, requestWidth]

theorem EncodeWidth.pdWrite (entryAddress value : Word64) :
    EncodeWidth.Statement (.pdWrite entryAddress value) := fun _ => by
  simp [encode, Instr.operandBits, Instr.opcode, requestWidth]

theorem EncodeWidth.ptAlloc :
    EncodeWidth.Statement (.ptAlloc) := fun _ => by
  simp [encode, Instr.operandBits, Instr.opcode, requestWidth]

theorem EncodeWidth.ptLink (level : Byte) (basePtr baseVa va child : Word64) :
    EncodeWidth.Statement (.ptLink level basePtr baseVa va child) := fun _ => by
  simp [encode, Instr.operandBits, Instr.opcode, requestWidth]

theorem EncodeWidth.ptMap (level : Byte) (basePtr baseVa va pa size attr : Word64) :
    EncodeWidth.Statement (.ptMap level basePtr baseVa va pa size attr) := fun _ => by
  simp [encode, Instr.operandBits, Instr.opcode, requestWidth]

theorem EncodeWidth.ptFault (level : Byte) (basePtr baseVa va pa size : Word64) :
    EncodeWidth.Statement (.ptFault level basePtr baseVa va pa size) := fun _ => by
  simp [encode, Instr.operandBits, Instr.opcode, requestWidth]

theorem EncodeWidth.ptBuild (count : BitVec 16) (regions : List Region) : EncodeWidth.Statement (.ptBuild count regions) := by
  intro h
  simp only [Instr.wf, beq_iff_eq] at h
  simp only [encode, Instr.operandBits, List.length_append, bitsOf_length, regions_bits_length, h]
  show _ = 8 + 16 + 256 * count.toNat
  omega

theorem EncodeWidth.ptActivate :
    EncodeWidth.Statement (.ptActivate) := fun _ => by
  simp [encode, Instr.operandBits, Instr.opcode, requestWidth]

theorem EncodeWidth.atV2p (addr : Word64) :
    EncodeWidth.Statement (.atV2p addr) := fun _ => by
  simp [encode, Instr.operandBits, Instr.opcode, requestWidth]

theorem EncodeWidth.atP2v (addr : Word64) :
    EncodeWidth.Statement (.atP2v addr) := fun _ => by
  simp [encode, Instr.operandBits, Instr.opcode, requestWidth]

theorem EncodeWidth.dlcB2c (n : Byte) :
    EncodeWidth.Statement (.dlcB2c n) := fun _ => by
  simp [encode, Instr.operandBits, Instr.opcode, requestWidth]

theorem EncodeWidth.dlcC2b (n : Byte) :
    EncodeWidth.Statement (.dlcC2b n) := fun _ => by
  simp [encode, Instr.operandBits, Instr.opcode, requestWidth]

theorem EncodeWidth.frmCheck (frame : Frame) :
    EncodeWidth.Statement (.frmCheck frame) := fun _ => by
  simp [encode, Instr.operandBits, Instr.opcode, requestWidth]

theorem EncodeWidth.idxClassW (channel : Byte) (index : Word32) :
    EncodeWidth.Statement (.idxClassW channel index) := fun _ => by
  simp [encode, Instr.operandBits, Instr.opcode, requestWidth]

theorem EncodeWidth.idxClassR (channel : Byte) (index : Word32) :
    EncodeWidth.Statement (.idxClassR channel index) := fun _ => by
  simp [encode, Instr.operandBits, Instr.opcode, requestWidth]

theorem EncodeWidth.frmEnc (frame : Frame) :
    EncodeWidth.Statement (.frmEnc frame) := fun _ => by
  simp [encode, Instr.operandBits, Instr.opcode, requestWidth]

theorem EncodeWidth.frmDec (img : Image) :
    EncodeWidth.Statement (.frmDec img) := fun _ => by
  simp [encode, Instr.operandBits, Instr.opcode, requestWidth]

theorem EncodeWidth.canWrite (channel : Byte) (index : Word32) (frame : Frame) :
    EncodeWidth.Statement (.canWrite channel index frame) := fun _ => by
  simp [encode, Instr.operandBits, Instr.opcode, requestWidth]

theorem EncodeWidth.canRead (channel : Byte) (index : Word32) :
    EncodeWidth.Statement (.canRead channel index) := fun _ => by
  simp [encode, Instr.operandBits, Instr.opcode, requestWidth]

end Sys2Proof.Laws
end

