-- ==== Sys2Proof/Machine/Text.lean ====
section
/-! DEFINITION. The textual syntax of operations and responses (`30_encoding.md` R88). Numbers are
written in hexadecimal, levels, channels, lengths and indices in decimal. -/

namespace Sys2Proof.Machine

/-- The text between a pair of braces. -/
def inBraces (t : String) : String :=
  String.singleton (Char.ofNat 123) ++ t ++ String.singleton (Char.ofNat 125)

/-- `0x` and the hexadecimal digits of a number. -/
def hexText (n : Nat) : String := "0x" ++ String.ofList (Nat.toDigits 16 n)

/-- The decimal digits of a number. -/
def decText (n : Nat) : String := String.ofList (Nat.toDigits 10 n)

/-- `name=value` with a hexadecimal value. -/
def hexField {w : Nat} (name : String) (v : BitVec w) : String := name ++ "=" ++ hexText v.toNat

/-- `name=value` with a decimal value. -/
def decField {w : Nat} (name : String) (v : BitVec w) : String := name ++ "=" ++ decText v.toNat

/-- Parts separated by commas. -/
def commas (parts : List String) : String := String.intercalate ", " parts

/-- The bytes of a list between brackets. -/
def bytesText (bytes : List Byte) : String :=
  "[" ++ commas (bytes.map fun b => hexText b.toNat) ++ "]"

/-- A frame: its payload is the first `len` bytes (R88, R90). -/
def frameText (f : Frame) : String :=
  inBraces (commas [hexField "id" f.id, if f.idMode = .extended then "ext" else "std",
    if f.type = .remote then "remote" else "data", hexField "opt" f.options, decField "len" f.len,
    "data=" ++ bytesText (f.data.toList.take f.len.toNat)])

/-- A buffer image (R91). -/
def imageText (m : Image) : String :=
  inBraces (commas [hexField "ID" m.id, hexField "PTR" m.ptr, hexField "FDC" m.fdc,
    "DATA=" ++ bytesText m.data.toList])

/-- A region, or `END` for the sentinel (R88, R96). -/
def regionText (r : Region) : String :=
  if isSentinel r then "END"
  else inBraces (commas [hexText r.virtualAddress.toNat, hexText r.physicalAddress.toNat,
    hexText r.size.toNat, hexText r.attr.toNat])

/-- The mnemonic of an operation (R84). -/
def mnemonic : Instr → String
  | .pdFault => "PD.FAULT"
  | .pdLink _ => "PD.LINK"
  | .pdBlock _ _ _ => "PD.BLOCK"
  | .pdWrite _ _ => "PD.WRITE"
  | .ptAlloc => "PT.ALLOC"
  | .ptLink _ _ _ _ _ => "PT.LINK"
  | .ptMap _ _ _ _ _ _ _ => "PT.MAP"
  | .ptFault _ _ _ _ _ _ => "PT.FAULT"
  | .ptBuild _ _ => "PT.BUILD"
  | .ptActivate => "PT.ACTIVATE"
  | .atV2p _ => "AT.V2P"
  | .atP2v _ => "AT.P2V"
  | .dlcB2c _ => "DLC.B2C"
  | .dlcC2b _ => "DLC.C2B"
  | .frmCheck _ => "FRM.CHECK"
  | .idxClassW _ _ => "IDX.CLASSW"
  | .idxClassR _ _ => "IDX.CLASSR"
  | .frmEnc _ => "FRM.ENC"
  | .frmDec _ => "FRM.DEC"
  | .canWrite _ _ _ => "CAN.WRITE"
  | .canRead _ _ => "CAN.READ"

/-- The operand fields of an operation, in the order of R81. -/
def operandTexts : Instr → List String
  | .pdFault => []
  | .pdLink addr => [hexField "addr" addr]
  | .pdBlock level addr attr => [decField "level" level, hexField "addr" addr, hexField "attr" attr]
  | .pdWrite a v => [hexField "entry_address" a, hexField "value" v]
  | .ptAlloc => []
  | .ptLink level basePtr baseVa va child =>
    [decField "level" level, hexField "base_ptr" basePtr, hexField "base_va" baseVa,
      hexField "va" va, hexField "child" child]
  | .ptMap level basePtr baseVa va pa size attr =>
    [decField "level" level, hexField "base_ptr" basePtr, hexField "base_va" baseVa,
      hexField "va" va, hexField "pa" pa, hexField "size" size, hexField "attr" attr]
  | .ptFault level basePtr baseVa va pa size =>
    [decField "level" level, hexField "base_ptr" basePtr, hexField "base_va" baseVa,
      hexField "va" va, hexField "pa" pa, hexField "size" size]
  | .ptBuild count regions =>
    [decField "count" count, "[" ++ commas (regions.map regionText) ++ "]"]
  | .ptActivate => []
  | .atV2p addr => [hexField "addr" addr]
  | .atP2v addr => [hexField "addr" addr]
  | .dlcB2c n => [decField "n" n]
  | .dlcC2b n => [decField "n" n]
  | .frmCheck frame => [frameText frame]
  | .idxClassW channel index => [decField "channel" channel, decField "index" index]
  | .idxClassR channel index => [decField "channel" channel, decField "index" index]
  | .frmEnc frame => [frameText frame]
  | .frmDec img => [imageText img]
  | .canWrite channel index frame =>
    [decField "channel" channel, decField "index" index, frameText frame]
  | .canRead channel index => [decField "channel" channel, decField "index" index]

/-- An operation: its mnemonic, then its fields (R88). -/
def instrText (i : Instr) : String :=
  match operandTexts i with
  | [] => mnemonic i
  | fields => mnemonic i ++ " " ++ commas fields

/-- The name of a status kind (`60_exceptions.md` R240). -/
def statusText : Status → String
  | .ok => "OK"
  | .invalidArgument => "InvalidArgument"
  | .alreadyOpen => "AlreadyOpen"
  | .notOpen => "NotOpen"
  | .inUse => "InUse"
  | .channelNotPresent => "ChannelNotPresent"
  | .initFailed => "InitFailed"
  | .canTransmitNotReady => "CanTransmitNotReady"
  | .bufferEmpty => "BufferEmpty"
  | .unsupported => "Unsupported"
  | .invalidMode => "InvalidMode"
  | .timeout => "Timeout"

/-- The result fields of an `OK` response (R82, R88). -/
def resultText : Result → String
  | .none => ""
  | .desc d => " " ++ hexField "desc" d
  | .addr a => " " ++ hexField "addr" a
  | .code c => " " ++ decField "code" c
  | .bytes n => " " ++ decField "bytes" n
  | .index cls k h => " " ++ decField "cls" cls ++ " " ++ decField "k" k ++ " " ++ decField "h" h
  | .image img => " img=" ++ imageText img
  | .frame f => " " ++ frameText f

/-- A response: its result fields are written for `OK` only, otherwise they have no meaning (R82). -/
def responseText (r : Response) : String :=
  if r.status = .ok then statusText r.status ++ resultText r.result else statusText r.status

/-- An operation and its response (R88). -/
def transactionText (i : Instr) (r : Response) : String := instrText i ++ " -> " ++ responseText r

end Sys2Proof.Machine
end

