-- ==== Sys2Proof/Tests/Slice0.lean ====
section
/-! SUPPORT. Tests: the well-formedness smoke tests, one decoded word per constructor, and small one-step
tests whose expected results are the vectors of `95_test_vectors.md`. -/

set_option Elab.async false

namespace Sys2Proof.Tests

open Sys2Proof.Machine Sys2Proof.Claims

/-! ### Helpers -/

/-- A bit string written as one number of a given width, most significant bit first. -/
def bitString (w n : Nat) : Bits := fieldBits w n

/-- A payload whose bytes past the list are 0. -/
def payload (l : List Byte) : Vector Byte 64 := Vector.ofFn fun i => l.getD i.val 0

/-- The region-list sentinel. -/
def sentinel : Region :=
  ⟨0xFFFFFFFFFFFFFFFF, 0xFFFFFFFFFFFFFFFF, 0xFFFFFFFFFFFFFFFF, 0xFFFFFFFFFFFFFFFF⟩

/-- `F1` of `95_test_vectors.md` section 2.7. -/
def frameF1 : Frame :=
  ⟨0x123, .standard, .data, 4, 12, payload [0, 1, 2, 3, 4, 5, 6, 7, 8, 9, 10, 11]⟩

/-- The image of V-FE-1, the one `F1` is packed into. -/
def imageF1 : Image :=
  ⟨0x123, 0x90000000, 4, payload [0, 1, 2, 3, 4, 5, 6, 7, 8, 9, 10, 11]⟩

/-- The next state of an outcome. -/
def after (o : Host.Outcome State Fault Refusal) : Option State :=
  match o with
  | .next t => some t
  | _ => none

/-- The response after an operation. -/
def answer (i : Instr) (s : State) : Option Response := (after (exec i s)).bind (·.rsp)

/-- The status after an operation. -/
def status (i : Instr) (s : State) : Option Status := (answer i s).map (·.status)

/-- The slot at `a` after an operation. -/
def slotAfter (i : Instr) (s : State) (a : Word64) : Option Word64 :=
  (after (exec i s)).map (memRead · a)

/-- The refusal an operation ends in. -/
def refusal (i : Instr) (s : State) : Option Refusal :=
  match exec i s with
  | .refused r => some r
  | _ => none

/-! ### Well-formedness: each check refuses an ill-formed term -/

theorem test_wf_build_count : (Instr.ptBuild 2 [sentinel]).wf = false := by decide

theorem test_wf_launch : (Cfg.launch.wf && Cfg.launch.layoutWf) = true := by decide +kernel

theorem test_wf_ranges_overlap : { Cfg.launch with nMb := 57 }.rangesWf = false := by decide +kernel

theorem test_wf_ranges_too_high :
    { Cfg.launch with cFifoBase := 2 ^ 32 - 5 }.rangesWf = false := by decide +kernel

theorem test_wf_segs_five :
    { Cfg.launch with segs := Cfg.launch.segs ++ [Segment.mk 0 0] }.segsWf = false := by decide +kernel

theorem test_wf_seg_base_misaligned : (Segment.mk 0x200000 0).baseWf = false := by decide +kernel

theorem test_wf_seg_base_above_va : (Segment.mk 0x100000000 0).baseWf = false := by decide +kernel

theorem test_wf_seg_bases_equal :
    { Cfg.launch with segs := [⟨0, 0x80001000⟩, ⟨0, 0x80002000⟩] }.segsWf = false := by
  decide +kernel

theorem test_wf_table_misaligned :
    { Cfg.launch with l1Base := 0x80000800 }.alignWf = false := by decide +kernel

theorem test_wf_tables_overlap :
    { Cfg.launch with segs := [⟨0, 0x80001000⟩, ⟨0x40000000, 0x80001000⟩] }.disjointWf = false := by
  decide +kernel

theorem test_wf_tag_table_zero : { Cfg.launch with tagTable := 0 }.tagsWf = false := by
  decide +kernel

theorem test_wf_tag_block_zero :
    { Cfg.launch with tagBlock := ⟨1, 0, 3⟩ }.tagsWf = false := by decide +kernel

theorem test_wf_level_zero : { Cfg.launch with maxLevel := 0 }.levelWf = false := by decide +kernel

theorem test_wf_layout_rtr_in_id : { Cfg.launch with rtrBit := 28 }.layoutWf = false := by
  decide +kernel

theorem test_wf_layout_same_fdc_bit : { Cfg.launch with brsBit := 0 }.layoutWf = false := by
  decide +kernel

theorem test_wf_layout_options_overlap : { Cfg.launch with optBrs := 3 }.layoutWf = false := by
  decide +kernel

/-! ### Decoding: one word of each row, written out from R81, R84, R90, R91, R96 -/

theorem test_decode_pdFault :
    (decode (bitString 8
      0x10)).toOption
      = some (.pdFault) := by decide +kernel

theorem test_decode_pdLink :
    (decode (bitString 72
      0x110000000080005000)).toOption
      = some (.pdLink 0x80005000) := by decide +kernel

theorem test_decode_pdBlock :
    (decode (bitString 144
      0x120200000000200000000000000000000704)).toOption
      = some (.pdBlock 2 0x20000000 0x704) := by decide +kernel

theorem test_decode_pdWrite :
    (decode (bitString 136
      0x1300000000800014000000000020000705)).toOption
      = some (.pdWrite 0x80001400 0x20000705) := by decide +kernel

theorem test_decode_ptAlloc :
    (decode (bitString 8
      0x20)).toOption
      = some (.ptAlloc) := by decide +kernel

theorem test_decode_ptLink :
    (decode (bitString 272
      0x21010000000080000000000000000000000000000000400000000000000080002000)).toOption
      = some (.ptLink 1 0x80000000 0 0x40000000 0x80002000) := by decide +kernel

theorem test_decode_ptMap :
    (decode (bitString 400
      0x2202000000008000200000000000400000000000000040200000000000009000000000000000006000000000000000000704)).toOption
      = some (.ptMap 2 0x80002000 0x40000000 0x40200000 0x90000000 0x600000 0x704) := by decide +kernel

theorem test_decode_ptFault :
    (decode (bitString 336
      0x230200000000800010000000000000000000000000000020000000000000004000000000000010000000)).toOption
      = some (.ptFault 2 0x80001000 0 0x200000 0x400000 0x10000000) := by decide +kernel

theorem test_decode_ptBuild :
    (decode (bitString 792
      0x24000300000000000000000000000000000000000000001000000000000000000000000000000010000000000000001000000000000000002000000000000000000704FFFFFFFFFFFFFFFFFFFFFFFFFFFFFFFFFFFFFFFFFFFFFFFFFFFFFFFFFFFFFFFF)).toOption
      = some (.ptBuild 3 [⟨0, 0, 0x10000000, 0⟩, ⟨0x10000000, 0x10000000, 0x200000, 0x704⟩, sentinel]) := by decide +kernel

theorem test_decode_ptActivate :
    (decode (bitString 8
      0x25)).toOption
      = some (.ptActivate) := by decide +kernel

theorem test_decode_atV2p :
    (decode (bitString 72
      0x260000000010100000)).toOption
      = some (.atV2p 0x10100000) := by decide +kernel

theorem test_decode_atP2v :
    (decode (bitString 72
      0x270000000010100000)).toOption
      = some (.atP2v 0x10100000) := by decide +kernel

theorem test_decode_dlcB2c :
    (decode (bitString 16
      0x300C)).toOption
      = some (.dlcB2c 12) := by decide +kernel

theorem test_decode_dlcC2b :
    (decode (bitString 16
      0x310D)).toOption
      = some (.dlcC2b 13) := by decide +kernel

theorem test_decode_frmCheck :
    (decode (bitString 565
      0x06431B5E221003DEAD0100000000000000000000000000000000000000000000000000000000000000000000000000000000000000000000000000000000000000000000000000)).toOption
      = some (.frmCheck ⟨0x18DAF110, .extended, .data, 0, 3, payload [0xDE, 0xAD, 0x01]⟩) := by decide +kernel

theorem test_decode_idxClassW :
    (decode (bitString 48
      0x330100000041)).toOption
      = some (.idxClassW 1 0x41) := by decide +kernel

theorem test_decode_idxClassR :
    (decode (bitString 48
      0x340100000022)).toOption
      = some (.idxClassR 1 0x22) := by decide +kernel

theorem test_decode_frmEnc :
    (decode (bitString 565
      0x06A00000FFED1411220000000000000000000000000000000000000000000000000000000000000000000000000000000000000000000000000000000000000000000000000000)).toOption
      = some (.frmEnc ⟨0x7FF, .standard, .remote, 5, 20, payload [0x11, 0x22]⟩) := by decide +kernel

theorem test_decode_frmDec :
    (decode (bitString 616
      0x36C00000012000123400000000AABB0000000000000000000000000000000000000000000000000000000000000000000000000000000000000000000000000000000000000000000000000000)).toOption
      = some (.frmDec ⟨0xC0000001, 0x20001234, 0, payload [0xAA, 0xBB]⟩) := by decide +kernel

theorem test_decode_canWrite :
    (decode (bitString 605
      0x06E00000000060000024640C000102030405060708090A0B00000000000000000000000000000000000000000000000000000000000000000000000000000000000000000000000000000000)).toOption
      = some (.canWrite 0 3 frameF1) := by decide +kernel

theorem test_decode_canRead :
    (decode (bitString 48
      0x380100000021)).toOption
      = some (.canRead 1 0x21) := by decide +kernel


theorem test_decode_reserved :
    ((decode (bitString 16 0x1400)).toOption, (decode (bitString 8 0xFF)).toOption)
      = (none, none) := by decide +kernel

theorem test_decode_short : (decode (bitString 71 0x11)).toOption = none := by decide +kernel

theorem test_decode_long : (decode (bitString 16 0x1000)).toOption = none := by decide +kernel

theorem test_table_word_level :
    decodeTableWord 16 0x0212 = some (.pdBlock 2 0 0) := by decide +kernel

theorem test_table_word_count :
    decodeTableWord 24 0x010024 = some (.ptBuild 1 [⟨0, 0, 0, 0⟩]) := by decide +kernel

theorem test_encode_writes_word :
    encode (.canRead 1 0x21) = bitString 48 0x380100000021 := by decide +kernel

/-! ### The PD family (vectors V-PD-*) -/

theorem test_pd_fault : answer .pdFault .reset = some ⟨.ok, .desc 0⟩ := by decide +kernel

theorem test_pd_link :
    answer (.pdLink 0x80001000) .reset = some ⟨.ok, .desc 0x80001003⟩ := by decide +kernel

theorem test_pd_block :
    answer (.pdBlock 3 0x10001000 0x704) .reset = some ⟨.ok, .desc 0x10001707⟩ := by
  decide +kernel

theorem test_pd_block_level_four :
    status (.pdBlock 4 0 0) .reset = some .invalidArgument := by decide +kernel

theorem test_pd_write_bytes :
    (after (exec (.pdWrite 0x80001400 0x10000705) .reset)).map (·.tm)
      = some [(0x80001400, 0x05), (0x80001401, 0x07), (0x80001403, 0x10)] := by decide +kernel

theorem test_pd_write_misaligned :
    refusal (.pdWrite 0x80001404 1) .reset = some .misalignedSlot := by decide +kernel

/-! ### The PT and AT families (vectors V-PT-*, V-AT-*, programs P1 and P4) -/

theorem test_pt_alloc : status .ptAlloc .reset = some .unsupported := by decide +kernel

theorem test_pt_link :
    slotAfter (.ptLink 1 0x80000000 0 0x40000000 0x80002000) .reset 0x80000008
      = some 0x80002003 := by decide +kernel

theorem test_pt_link_slot_four :
    refusal (.ptLink 1 0x80000000 0 0x100000000 0x80002000) .reset = some .slotOutOfTable := by
  decide +kernel

theorem test_pt_map_third_slot :
    slotAfter (.ptMap 2 0x80002000 0x40000000 0x40200000 0x90000000 0x600000 0x704) .reset
      0x80002018 = some 0x90400705 := by decide +kernel

theorem test_pt_map_wraps :
    slotAfter (.ptMap 2 0x80001000 0 0 0xFFFFFFFFFFE00000 0x400000 0) .reset 0x80001008
      = some 1 := by decide +kernel

theorem test_pt_fault_clears :
    slotAfter (.ptFault 2 0x80001000 0 0x10000000 0 0x200000)
      { State.reset with tm := Memory.setSlot [] 0x80001400 0x10000001 } 0x80001400
      = some 0 := by decide +kernel

theorem test_pt_fault_checks_pa :
    status (.ptFault 2 0x80001000 0 0 0x1000 0x200000) .reset = some .invalidArgument := by
  decide +kernel

theorem test_pt_build_region :
    slotAfter (.ptBuild 2 [⟨0x10000000, 0x10000000, 0x200000, 0x704⟩, sentinel]) .reset 0x80001400
      = some 0x10000705 := by decide +kernel

theorem test_pt_build_fails_half_way :
    ((after (exec (.ptBuild 3 [⟨0x40000000, 0x40000000, 0x400000, 0x704⟩,
        ⟨0x40400000, 0x40400000, 0x100000, 0x704⟩, sentinel]) .reset)).map fun t =>
      (t.rsp.map (·.status), memRead t 0x80000008, memRead t 0x80002008, memRead t 0x80002010))
      = some (some .invalidArgument, 0x80002003, 0x40200705, 0) := by decide +kernel

theorem test_pt_activate :
    (after (exec .ptActivate .reset)).map (·.ttbr) = some 0x80000001 := by decide +kernel

theorem test_at_v2p :
    answer (.atV2p 0x05000000) .reset = some ⟨.ok, .addr 0x05000000⟩ := by decide +kernel

theorem test_at_p2v :
    answer (.atP2v 0xFFFFFFFFFFFFFFFF) .reset = some ⟨.ok, .addr 0xFFFFFFFFFFFFFFFF⟩ := by
  decide +kernel

theorem test_walk_after_mmu_open :
    ((after (execMmuOpen [⟨0x10000000, 0x10000000, 0x200000, 0x704⟩, sentinel] .reset)).map fun t =>
      (walk t 0x10100000, walk t 0x05000000, t.ttbr))
      = some (.mapped 0x10100000 0x704, .fault, 0x80000001) := by decide +kernel

/-! ### DLC and frame check (section 2.3, 2.4) -/

theorem test_dlc_b2c_up :
    ([9, 12, 13, 24, 25, 32, 33, 48, 49, 64].map fun n => bytesToDlc .up n)
      = [some 9, some 9, some 10, some 12, some 13, some 13, some 14, some 14, some 15,
          some 15] := by decide +kernel

theorem test_dlc_b2c_down :
    ([9, 12, 15, 24, 31, 32, 63, 64, 65].map fun n => bytesToDlc .down n)
      = [some 8, some 9, some 9, some 12, some 12, some 13, some 14, some 15, none] := by
  decide +kernel

theorem test_dlc_b2c : answer (.dlcB2c 12) .reset = some ⟨.ok, .code 9⟩ := by decide +kernel

theorem test_dlc_c2b : answer (.dlcC2b 13) .reset = some ⟨.ok, .bytes 32⟩ := by decide +kernel

theorem test_dlc_c2b_sixteen : status (.dlcC2b 16) .reset = some .invalidArgument := by
  decide +kernel

theorem test_frm_check_classic_options :
    status (.frmCheck ⟨0x10, .standard, .data, 1, 0, payload []⟩) .reset
      = some .invalidArgument := by decide +kernel

theorem test_frm_check_fd_lengths :
    ([8, 10, 12, 13, 64, 65].map fun n => checkFrame Cfg.launch { frameF1 with len := n })
      = [true, false, true, false, true, false] := by decide +kernel

/-! ### Index calculator (section 2.5) -/

theorem test_idx_classw : answer (.idxClassW 1 5) .reset = some ⟨.ok, .index 0 5 37⟩ := by
  decide +kernel

theorem test_idx_classw_rx_fifo : status (.idxClassW 0 39) .reset = some .invalidArgument := by
  decide +kernel

theorem test_idx_classr : answer (.idxClassR 1 34) .reset = some ⟨.ok, .index 1 2 2⟩ := by
  decide +kernel

theorem test_idx_classr_channel : refusal (.idxClassR 2 0) .reset = some .channelOutOfRange := by
  decide +kernel

/-! ### Frame codec (section 2.6) -/

theorem test_frm_enc :
    answer (.frmEnc ⟨0x1FFFFFFF, .extended, .remote, 7, 48, payload [0xAB]⟩) .reset
      = some ⟨.ok, .image ⟨0xDFFFFFFF, 0xE0000000, 7, payload [0xAB]⟩⟩ := by decide +kernel

theorem test_frm_enc_id :
    refusal (.frmEnc { frameF1 with id := 0x20000000 }) .reset = some .idOutOfRange := by
  decide +kernel

theorem test_frm_dec :
    ((answer (.frmDec ⟨0xC0000001, 0x20001234, 0, payload [0xAA, 0xBB]⟩) .reset).map fun r =>
      match r.result with
      | .frame f => (f.id, f.idMode, f.type, f.options, f.len, f.data[1])
      | _ => (0, .standard, .data, 0, 0, 0))
      = some (1, .extended, .remote, 0, 2, 0xBB) := by decide +kernel

/-! ### Frame I/O (section 2.7) -/

theorem test_can_write_mb :
    (after (exec (.canWrite 1 3 frameF1) .reset)).map (·.txmb[35]?)
      = some (some ⟨imageF1, true⟩) := by decide +kernel

theorem test_can_write_busy_first :
    status (.canWrite 0 3 { frameF1 with options := 0, len := 9 })
      { State.reset with txmb := List.replicate 64 ⟨zeroImage, true⟩ }
      = some .canTransmitNotReady := by decide +kernel

theorem test_can_read_rx_fifo :
    ((after (exec (.canRead 0 34)
        { State.reset with rxfifo := [[], [], [imageF1, zeroImage]] })).map (·.rxfifo))
      = some [[], [], [zeroImage]] := by decide +kernel

theorem test_can_read_empty : status (.canRead 0 3) .reset = some .bufferEmpty := by
  decide +kernel

/-! ### Steps and the other agents -/

theorem test_step_runs_table_word :
    ((after (step (State.reset.withFetchWord 16 0x0C30))).bind (·.rsp))
      = some ⟨.ok, .code 9⟩ := by decide +kernel

theorem test_step_reserved :
    ((after (step { State.reset with inputs := [.request (bitString 8 0x39)] })).bind (·.rsp))
      = some ⟨.unsupported, .none⟩ := by decide +kernel

theorem test_walker_sees_old_value :
    ((after (exec (.pdWrite 0x80001400 0x20000705) .reset)).bind fun t =>
      (after (takeInput (.walkerRead 0x80001400 false 1) t)).bind (·.walkerSees))
      = some 0 := by decide +kernel

theorem test_peripheral_delivers :
    (after (takeInput (.deliverMb 3 imageF1) .reset)).map (·.rxmb[3]?)
      = some (some ⟨imageF1, true⟩) := by decide +kernel

theorem test_response_bits :
    responseBits ⟨.ok, .desc 0x705⟩ = bitString 72 0x705 := by decide +kernel

theorem test_text_pdBlock :
    transactionText (.pdBlock 2 0x10000000 0x704) ⟨.ok, .desc 0x10000705⟩
      = "PD.BLOCK level=2, addr=0x10000000, attr=0x704 -> OK desc=0x10000705" := by decide +kernel

theorem test_reset_banks_follow_cfg :
    let s := State.resetOf { Cfg.launch with chStride := ⟨0, 8, 3⟩ } [] []
    (s.txmb.length, s.rxmb.length, s.rxfifo.length, s.cfifo.length) = (32, 32, 16, 6) := by
  decide +kernel

/-- R212 with `CFIFO_CH_STRIDE = 3`: the frame is checked before the FIFO is reached. -/
theorem test_can_write_frame_before_cFifo :
    status (.canWrite 1 69 { frameF1 with len := 10 })
      (State.resetOf { Cfg.launch with chStride := ⟨32, 0, 3⟩ } [] []) = some .invalidArgument := by
  decide +kernel

/-- R65: with the default tags 0b01 is reserved at level 3 and read as fault. -/
theorem test_form_of_reserved :
    (formOf Cfg.launch .l3 1, formOf Cfg.launch .l3 3, formOf Cfg.launch .l2 1, formOf Cfg.launch .l2 3,
      isReservedDesc Cfg.launch .l3 1) = (.fault, .block, .block, .link, true) := by decide +kernel

/-- R50: bytes 4 to 7 of a payload are bits 7:0 to 31:24 of `DF[1]`. -/
theorem test_data_word : dataWord imageF1.data 1 = 0x07060504 := by decide +kernel

/-! ### Witnesses: the hypotheses of each statement can be met together, each clause at a boundary -/

/-- A region of one 2 MiB slot. -/
def region1 : Region := ⟨0x10000000, 0x10000000, 0x200000, 0x704⟩

/-- The last slot of the last segment. -/
def regionTop : Region := ⟨0xFFE00000, 0xFFE00000, 0x200000, 0x704⟩

/-- The state after reset, with another launch memory map. -/
def smallMap : State := { State.reset with cfg := { Cfg.launch with tmMap := [⟨0, 8⟩] } }

/-- The state after reset, with one segment only, above address 0. -/
def oneSegment : State :=
  { State.reset with cfg := { Cfg.launch with segs := [⟨0x40000000, 0x80002000⟩] } }

/-- The state after reset, with every receiving store holding `imageF1`. -/
def received : State :=
  { State.reset with
    rxmb := List.replicate 64 ⟨imageF1, true⟩
    rxfifo := List.replicate 8 [imageF1]
    cfifo := List.replicate 6 ⟨[imageF1], [imageF1]⟩ }

/-- The state after reset, with every transmitting store in use. -/
def transmitting : State :=
  { State.reset with
    txmb := List.replicate 64 ⟨imageF1, true⟩
    cfifo := List.replicate 6 ⟨List.replicate 4 imageF1, []⟩ }

/-- Tables that link segment 0 and map slot 511 of it. -/
def linked : State :=
  { State.reset with
    tm := Memory.setSlot (Memory.setSlot [] 0x80000000 0x80001003) 0x80001FF8 0x3FE00705 }

/-- An FD frame whose only fault is its length. -/
def badFrame : Frame := { frameF1 with len := 10 }

/-- From a Boolean check of the next state to the existence of one. -/
theorem next_of_any {o : Host.Outcome State Fault Refusal} {p : State → Bool}
    (h : (after o).any p = true) : ∃ t, o = .next t ∧ p t = true := by
  cases o with
  | next t => exact ⟨t, rfl, by simpa [after] using h⟩
  | fault f => simp [after] at h
  | refused r => simp [after] at h

theorem witness_pdBlock :
    ((1 : Byte).toNat = levelNumber .l1 ∧ levelNumber .l1 ≤ State.reset.cfg.maxLevel.val)
      ∧ ((3 : Byte).toNat = levelNumber .l3 ∧ levelNumber .l3 ≤ State.reset.cfg.maxLevel.val)
      ∧ (0 : Byte).toNat = 0 ∧ State.reset.cfg.maxLevel.val < (4 : Byte).toNat := by
  decide +kernel

theorem witness_pdWrite :
    (0xFFFFFFFFFFFFFFF8 : Word64).toNat % 8 = 0
      ∧ slotBacked State.reset.cfg 0xFFFFFFFFFFFFFFF8 = true
      ∧ (1 : Word64).toNat % 8 ≠ 0 := by decide +kernel

theorem witness_store_outside_map :
    slotBacked smallMap.cfg 0 = true ∧ (8 : Word64).toNat % 8 = 0
      ∧ slotBacked smallMap.cfg 8 = false := by decide +kernel

theorem witness_block_reads_back :
    (1 : Byte).toNat = levelNumber .l1 ∧ levelNumber .l1 ≤ State.reset.cfg.maxLevel.val
      ∧ State.reset.cfg.oaMask = Cfg.launch.oaMask ∧ State.reset.cfg.attrMask = Cfg.launch.attrMask
      ∧ (0x0000FFFFC0000000 : Word64).toNat % strideOf .l1 = 0
      ∧ (0x0000FFFFC0000000 : Word64).toNat < 2 ^ 48
      ∧ (0xFFFF000000000FFC : Word64) &&& 0x0000FFFFFFFFF003 = 0 := by decide +kernel

/-- These operands meet what R116 asks, and bit 12 of the attribute is lost to `ATTR_MASK`. -/
theorem witness_block_as_written :
    (2 : Byte).toNat = levelNumber .l2 ∧ levelNumber .l2 ≤ State.reset.cfg.maxLevel.val
      ∧ (0 : Word64).toNat % strideOf .l2 = 0
      ∧ (0x1000 : Word64) &&& (State.reset.cfg.oaMask.forLevel .l2 ||| 0x3) = 0 := by
  decide +kernel

theorem witness_forms_distinct :
    State.reset.cfg.tagsWf = true ∧ State.reset.cfg.tagTable ≠ State.reset.cfg.tagBlock.forLevel .l2
      ∧ (2 : Byte).toNat = levelNumber .l2 ∧ levelNumber .l2 ≤ State.reset.cfg.maxLevel.val
      ∧ (0x80001000 : Word64).extractLsb' 0 2 = 0 ∧ (0x704 : Word64).extractLsb' 0 2 = 0 := by
  decide +kernel

theorem witness_ptLink_errors :
    State.reset.cfg.maxLevel.val - 1 < (3 : Byte).toNat
      ∧ (0x3FFFFFFF : Word64).toNat < (0x40000000 : Word64).toNat
      ∧ (1 : Word64).toNat % strideOf .l1 ≠ 0
      ∧ entriesOf State.reset.cfg .l1 ≤ slotOf .l1 0 0x100000000 := by decide +kernel

theorem witness_ptLink :
    (1 : Byte).toNat = levelNumber .l1 ∧ levelNumber .l1 ≤ State.reset.cfg.maxLevel.val - 1
      ∧ (0 : Word64).toNat ≤ (0xC0000000 : Word64).toNat
      ∧ (0xC0000000 : Word64).toNat % strideOf .l1 = 0
      ∧ slotOf .l1 0 0xC0000000 < entriesOf State.reset.cfg .l1
      ∧ SlotsWritable State.reset.cfg 0x80000000 (slotOf .l1 0 0xC0000000) 1 := by
  unfold SlotsWritable; decide +kernel

/-- The last two slots of a segment's table; one slot more does not fit. -/
theorem witness_ptMap_ptFault :
    (2 : Byte).toNat = levelNumber .l2 ∧ levelNumber .l2 ≤ State.reset.cfg.maxLevel.val
      ∧ (0x40000000 : Word64).toNat ≤ (0x7FC00000 : Word64).toNat
      ∧ (0x7FC00000 : Word64).toNat % strideOf .l2 = 0
      ∧ (0xFFFFFFFFFFE00000 : Word64).toNat % strideOf .l2 = 0
      ∧ (0x400000 : Word64).toNat % strideOf .l2 = 0
      ∧ slotOf .l2 0x40000000 0x7FC00000 + slotCount .l2 0x400000 ≤ entriesOf State.reset.cfg .l2
      ∧ entriesOf State.reset.cfg .l2 < slotOf .l2 0x40000000 0x7FC00000 + slotCount .l2 0x600000
      ∧ State.reset.cfg.entries3 ≤ 2 ^ 61
      ∧ SlotsWritable State.reset.cfg 0x80002000 (slotOf .l2 0x40000000 0x7FC00000)
        (slotCount .l2 0x400000) := by
  unfold SlotsWritable; decide +kernel

theorem witness_slot_number :
    (0xFFFFFFFFFFFFF000 : Word64).toNat + 8 * 511 < 2 ^ 64
      ∧ (0xFFFFFFFF : Word64).toNat < 2 ^ 32 ∧ (0xC0000000 : Word64).toNat % 2 ^ 30 = 0
      ∧ (0xC0000000 : Word64).toNat ≤ (0xFFFFFFFF : Word64).toNat
      ∧ (0xFFFFFFFF : Word64).toNat < (0xC0000000 : Word64).toNat + 2 ^ 30 := by decide +kernel

theorem witness_segment_selection :
    (Cfg.launch.segs.map (·.baseVa)).Nodup
      ∧ selectSegment 0x3FFFFFFF oneSegment.cfg.segs = none
      ∧ selectSegment 0x40000000 oneSegment.cfg.segs = some ⟨0x40000000, 0x80002000⟩ := by
  decide +kernel

theorem witness_ptBuild :
    buildReady State.reset.cfg [region1, regionTop] = true ∧ isSentinel sentinel = true
      ∧ [region1, regionTop].length < (3 : BitVec 16).toNat
      ∧ selectSegment region1.virtualAddress State.reset.cfg.segs = some ⟨0, 0x80001000⟩
      ∧ 0 < slotCount .l2 region1.size
      ∧ (∀ r' ∈ [regionTop], ∀ n' < slotCount .l2 r'.size,
        regionSlot ⟨0xC0000000, 0x80004000⟩ r' n' ≠ regionSlot ⟨0, 0x80001000⟩ region1 0)
      ∧ (∀ g ∈ State.reset.cfg.segs,
        (0x80001408 : Word64) ≠ slotAddr State.reset.cfg.l1Base (slotOf .l1 0 g.baseVa))
      ∧ (∀ r ∈ [region1, regionTop], ∀ g ∈ State.reset.cfg.segs,
        selectSegment r.virtualAddress State.reset.cfg.segs = some g →
        ∀ n < slotCount .l2 r.size, (0x80001408 : Word64) ≠ regionSlot g r n)
      ∧ ∀ tb ∈ State.reset.cfg.tables, 0x7FFFFFFF < tb.1 ∨ tb.1 + tb.2 ≤ 0x7FFFFFFF := by
  decide +kernel

theorem witness_ptBuild_stops :
    (∃ t, exec (.ptBuild (BitVec.ofNat 16 2) [region1, sentinel]) .reset = .next t
        ∧ answeredOk t = true)
      ∧ isSentinel region1 = false ∧ State.reset.cfg.paramCheck = true
      ∧ allAligned .l2 [0x10000000, 0x10000000, 0x100000] = false
      ∧ selectSegment region1.virtualAddress oneSegment.cfg.segs = none
      ∧ ∃ t, exec (.ptBuild (BitVec.ofNat 16 1) [sentinel]) oneSegment = .next t
        ∧ answeredOk t = true :=
  ⟨next_of_any (by decide +kernel), by decide +kernel, by decide +kernel, by decide +kernel,
    by decide +kernel, next_of_any (by decide +kernel)⟩

theorem witness_walk :
    linked.cfg.tagTable = 0b11 ∧ linked.cfg.tagBlock = Cfg.launch.tagBlock
      ∧ linked.cfg.oaMask = Cfg.launch.oaMask ∧ linked.cfg.nextMask = Cfg.launch.nextMask
      ∧ linked.cfg.attrMask = Cfg.launch.attrMask ∧ (0x3FFFFFFF : Word64).toNat < 2 ^ 32
      ∧ (0x80001000 : Word64) &&& linked.cfg.nextMask = 0x80001000
      ∧ memRead linked (slotAddr linked.cfg.l1Base ((0x3FFFFFFF : Word64).toNat / 2 ^ 30))
        = (0x80001000 : Word64) ||| 0b11
      ∧ (0x3FE00000 : Word64).toNat % 2 ^ 21 = 0 ∧ (0x3FE00000 : Word64).toNat < 2 ^ 48
      ∧ (0x704 : Word64) &&& 0x0000FFFFFFFFF003 = 0
      ∧ memRead linked (slotAddr 0x80001000 ((0x3FFFFFFF : Word64).toNat / 2 ^ 21 % 512))
        = (0x3FE00000 : Word64) ||| 0x704 ||| 0b01
      ∧ memRead linked (slotAddr 0x80001000 ((0 : Word64).toNat / 2 ^ 21 % 512)) = 0 := by
  decide +kernel

theorem witness_dlc :
    64 < (65 : Byte).toNat ∧ (64 : Byte).toNat ≤ 64 ∧ 15 < (16 : Byte).toNat
      ∧ (15 : Byte).toNat ≤ 15 := by decide

theorem witness_good_frame :
    GoodFrame State.reset.cfg frameF1 ∧ GoodFrame State.reset.cfg { frameF1 with len := 64 }
      ∧ GoodFrame State.reset.cfg { frameF1 with options := 0, len := 8 }
      ∧ ¬ GoodFrame State.reset.cfg { frameF1 with options := 0, len := 9 }
      ∧ ¬ GoodFrame State.reset.cfg badFrame := by
  unfold GoodFrame; decide +kernel

theorem witness_index :
    State.reset.cfg.rangesWf = true ∧ (1 : Byte).toNat < State.reset.cfg.nChannels
      ∧ State.reset.cfg.nChannels ≤ (2 : Byte).toNat ∧ (31 : Word32).toNat < State.reset.cfg.nMb
      ∧ (State.reset.cfg.nMb ≤ (32 : Word32).toNat
        ∧ (39 : Word32).toNat < State.reset.cfg.nMb + State.reset.cfg.nRxFifo)
      ∧ (State.reset.cfg.nMb + State.reset.cfg.nRxFifo ≤ (40 : Word32).toNat
        ∧ (63 : Word32).toNat < State.reset.cfg.cFifoBase)
      ∧ (State.reset.cfg.cFifoBase ≤ (64 : Word32).toNat
        ∧ (69 : Word32).toNat < State.reset.cfg.cFifoBase + State.reset.cfg.nCFifo)
      ∧ State.reset.cfg.cFifoBase + State.reset.cfg.nCFifo ≤ (70 : Word32).toNat := by
  decide +kernel

theorem witness_index_laws :
    classify Cfg.launch 64 = some (.cFifo, 0) ∧ classify Cfg.launch 69 = some (.cFifo, 5)
      ∧ Cfg.launch.nMb ≤ Cfg.launch.chStride.mb ∧ 31 < Cfg.launch.nMb
      ∧ Cfg.launch.chStride.forClass .rxFifo = 0 := by decide +kernel

theorem witness_frmEnc :
    2 ^ State.reset.cfg.idW.val ≤ (0x20000000 : Word32).toNat
      ∧ (0x1FFFFFFF : Word32).toNat < 2 ^ State.reset.cfg.idW.val
      ∧ 64 < (65 : Byte).toNat ∧ (64 : Byte).toNat ≤ 64 := by decide +kernel

theorem witness_round_trip :
    Cfg.launch.layoutWf = true ∧ frameF1.id.toNat < 2 ^ Cfg.launch.idW.val
      ∧ GoodFrame Cfg.launch frameF1
      ∧ badFrame.options &&& Cfg.launch.optFd ≠ 0 ∧ badFrame.len.toNat ≤ 64
      ∧ ¬ GoodFrame Cfg.launch badFrame := by
  unfold GoodFrame; decide +kernel

theorem witness_canWrite_mb :
    (1 : Byte).toNat < State.reset.cfg.nChannels ∧ (31 : Word32).toNat < State.reset.cfg.nMb
      ∧ State.reset.txmb[(31 : Word32).toNat + (1 : Byte).toNat * State.reset.cfg.chStride.mb]?
        = some ⟨zeroImage, false⟩
      ∧ GoodFrame State.reset.cfg frameF1 ∧ frameF1.id.toNat < 2 ^ State.reset.cfg.idW.val := by
  unfold GoodFrame; decide +kernel

theorem witness_canWrite_cFifo :
    State.reset.cfg.rangesWf = true ∧ State.reset.cfg.cFifoBase ≤ (69 : Word32).toNat
      ∧ (69 : Word32).toNat < State.reset.cfg.cFifoBase + State.reset.cfg.nCFifo
      ∧ State.reset.cfifo[(69 : Word32).toNat - State.reset.cfg.cFifoBase
        + (1 : Byte).toNat * State.reset.cfg.chStride.cFifo]? = some ⟨[], []⟩
      ∧ State.reset.cfg.fifoDepth = some 4 := by decide +kernel

theorem witness_canWrite_busy_and_full :
    transmitting.txmb[(31 : Word32).toNat + (1 : Byte).toNat * transmitting.cfg.chStride.mb]?
        = some ⟨imageF1, true⟩
      ∧ transmitting.cfifo[(69 : Word32).toNat - transmitting.cfg.cFifoBase
        + (1 : Byte).toNat * transmitting.cfg.chStride.cFifo]?
        = some ⟨List.replicate 4 imageF1, []⟩
      ∧ transmitting.cfg.fifoDepth = some 4 ∧ 4 ≤ (List.replicate 4 imageF1).length := by
  decide +kernel

theorem witness_failed_frame_io :
    ∃ t, exec (.canRead 0 3) .reset = .next t ∧ (!answeredOk t) = true :=
  next_of_any (p := fun t => !answeredOk t) (by decide +kernel)

theorem witness_canRead :
    received.rxmb[(31 : Word32).toNat + (1 : Byte).toNat * received.cfg.chStride.mb]?
        = some ⟨imageF1, true⟩
      ∧ received.rxfifo[(39 : Word32).toNat - received.cfg.nMb
        + (1 : Byte).toNat * received.cfg.chStride.rxFifo]? = some (imageF1 :: [])
      ∧ received.cfifo[(69 : Word32).toNat - received.cfg.cFifoBase
        + (1 : Byte).toNat * received.cfg.chStride.cFifo]? = some ⟨[imageF1], imageF1 :: []⟩ := by
  decide +kernel

theorem witness_canRead_empty :
    State.reset.rxmb[(31 : Word32).toNat + (1 : Byte).toNat * State.reset.cfg.chStride.mb]?
        = some ⟨zeroImage, false⟩
      ∧ State.reset.rxfifo[(39 : Word32).toNat - State.reset.cfg.nMb
        + (1 : Byte).toNat * State.reset.cfg.chStride.rxFifo]? = some []
      ∧ State.reset.cfifo[(69 : Word32).toNat - State.reset.cfg.cFifoBase
        + (1 : Byte).toNat * State.reset.cfg.chStride.cFifo]? = some ⟨[], []⟩ := by
  decide +kernel

theorem witness_delivered :
    State.reset.cfg.layoutWf = true ∧ (3 : Word32).toNat < State.reset.cfg.nMb
      ∧ State.reset.rxmb[(3 : Word32).toNat + (0 : Byte).toNat * State.reset.cfg.chStride.mb]?
        = some ⟨zeroImage, false⟩
      ∧ ∃ t, exec (.canWrite 0 3 frameF1) .reset = .next t
        ∧ (answeredOk t && decide (t.txmb[(3 : Word32).toNat
          + (0 : Byte).toNat * State.reset.cfg.chStride.mb]? = some ⟨imageF1, true⟩)) = true :=
  ⟨by decide +kernel, by decide +kernel, by decide +kernel, next_of_any (by decide +kernel)⟩

theorem witness_peripheral :
    transmitting.txmb[63]? = some ⟨imageF1, true⟩ ∧ received.rxmb[63]? = some ⟨imageF1, true⟩
      ∧ received.rxfifo[7]? = some [imageF1]
      ∧ received.cfifo[5]? = some ⟨imageF1 :: [], [imageF1]⟩ := by decide +kernel

theorem witness_walker :
    (∀ w ∈ State.reset.unsynced, w.addr ≠ 0x80001400)
      ∧ ∃ t, exec (.pdWrite 0x80001400 1) State.reset.beginOp = .next t ∧ (t.tm != []) = true :=
  ⟨by decide +kernel, next_of_any (p := fun t => t.tm != []) (by decide +kernel)⟩

/-- A walker read after a fill that answered `OK`, and after the requester's own barrier. -/
theorem witness_barrier :
    (∃ t, exec (.ptFault 2 0x80001000 0 0 0 0x200000) .reset = .next t
        ∧ (answeredOk t && (after (takeInput (.walkerRead 0x80001000 false 0) t)).isSome) = true)
      ∧ ∃ t, takeInput .requesterBarrier .reset = .next t
        ∧ (after (takeInput (.walkerRead 0x80001000 false 0) t)).isSome = true :=
  ⟨next_of_any (by decide +kernel),
    next_of_any (p := fun t => (after (takeInput (.walkerRead 0x80001000 false 0) t)).isSome)
      (by decide +kernel)⟩

/-- An operation that is not PT.ACTIVATE, and one that stores nothing, have a next state. -/
theorem witness_next :
    ∃ t, exec (.canWrite 1 31 frameF1) .reset = .next t ∧ answeredOk t = true :=
  next_of_any (by decide +kernel)

theorem witness_operations_keep :
    (Instr.pdFault).opcode ∉ [0x13, 0x21, 0x22, 0x23, 0x24, 0x25, 0x37, 0x38]
      ∧ ∃ t, exec .pdFault transmitting = .next t ∧ answeredOk t = true :=
  ⟨by decide, next_of_any (by decide +kernel)⟩

/-- Full transmit queues, one store the walker may not have seen, and a store requested next. -/
def busyState : State :=
  { transmitting with
    tm := [(0x80001000, 1)]
    unsynced := [⟨0x80001000, 0⟩]
    opWindow := [⟨0x80001008, 7⟩, ⟨0x80001000, 0⟩]
    inputs := [.request (bitString 136 0x1300000000800014000000000020000705)] }

theorem witness_inv : Inv busyState := by
  refine ⟨by decide +kernel, ?_, ?_, by decide +kernel, by decide +kernel⟩
  · unfold banksOk; decide +kernel
  · have hq : ∀ f ∈ busyState.cfifo, f.txq.length ≤ 4 := by decide +kernel
    intro f hf d hd
    have h4 : busyState.cfg.fifoDepth = some 4 := rfl
    have : d = 4 := by simpa [h4] using hd.symm
    exact this ▸ hq f hf

theorem witness_step : ∃ t, step busyState = .next t ∧ t.inputs.isEmpty = true :=
  next_of_any (p := fun t => t.inputs.isEmpty) (by decide +kernel)

theorem witness_step_runs :
    ((decode (bitString 16 0x300C)).toOption = some (.dlcB2c 12)) ∧ (Instr.dlcB2c 12).wf = true
      ∧ (match decode (bitString 7 0x30) with | .error .tooShort => true | _ => false) = true
      ∧ (match decode (bitString 17 0x6018) with
        | .error (.wrongLength _) => true
        | _ => false) = true := by
  decide +kernel

/-- MMU.OPEN as a step, on the region list of the state. -/
theorem witness_step_mmuOpen :
    ∃ t, step { State.resetOf Cfg.launch [region1, sentinel] [] with inputs := [.mmuOpen] } = .next t
      ∧ (memRead t 0x80001400 == 0x10000705 && t.ttbr == 0x80000001) = true :=
  next_of_any (p := fun t => memRead t 0x80001400 == 0x10000705 && t.ttbr == 0x80000001)
    (by decide +kernel)

theorem witness_reset_memory : Memory.wf [(0x80001000, 1), (2 ^ 64 - 1, 255)] = true := by
  decide +kernel

theorem witness_reserved :
    (0xFF : Byte).toNat ∉ opcodes ∧ (0x39 : Byte).toNat ∉ opcodes := by decide

theorem witness_well_formed :
    (Instr.ptBuild 1 [sentinel]).wf = true ∧ (Instr.ptBuild 0 []).wf = true := by decide

end Sys2Proof.Tests
end

/-! What an operation of the block can do, said once (`Effect`, `exec_answers`), what each agent's
move can do, and the statements of `10_state.md` derived from that: which stores an operation keeps to,
and the invariant that every step keeps. -/

namespace Sys2Proof.Machine

/-! ### The states a sequence of steps can end in -/

/-- Every state that `p` ends in, going on or raising an error, satisfies `P`. -/
def Progress.EndsIn (P : State → Prop) : Progress → Prop
  | .ok t => P t
  | .raised _ t => P t
  | .fault _ => True
  | .refused _ => True

/-- Every next state of `o` is a state that satisfies `P`, with a response added. -/
def Answers (P : State → Prop) (o : Host.Outcome State Fault Refusal) : Prop :=
  ∀ t, o = .next t → ∃ u e r, P u ∧ t = u.respond e r

section Answering

variable {P : State → Prop} {s : State}

theorem answers_respond (hs : P s) (e : Status) (r : Result) : Answers P (.next (s.respond e r)) := by
  rintro t ⟨⟩
  exact ⟨s, e, r, hs, rfl⟩

theorem answers_raise (hs : P s) (e : Status) (shape : ResultShape) :
    Answers P (.next (s.raise e shape)) :=
  answers_respond hs e (freeResult s.draws shape)

theorem answers_fault (f : Fault) : Answers P (.fault f) := fun _ h => by cases h

theorem answers_refused (r : Refusal) : Answers P (.refused r) := fun _ h => by cases h

theorem Progress.EndsIn.answers {p : Progress} (hp : p.EndsIn P) : Answers P p.answer := by
  cases p with
  | ok u => exact answers_respond hp _ _
  | raised e u => exact answers_raise hp _ _
  | fault f => exact answers_fault f
  | refused r => exact answers_refused r

/-! ### Operations that only answer -/

theorem answers_execPdBlock (hs : P s) (level : Byte) (addr attr : Word64) :
    Answers P (execPdBlock level addr attr s) := by
  unfold execPdBlock
  split
  · exact answers_raise hs _ _
  · exact answers_respond hs _ _

theorem answers_execDlcB2c (hs : P s) (n : Byte) : Answers P (execDlcB2c n s) := by
  unfold execDlcB2c
  split
  · exact answers_raise hs _ _
  · exact answers_respond hs _ _

theorem answers_execDlcC2b (hs : P s) (n : Byte) : Answers P (execDlcC2b n s) := by
  unfold execDlcC2b
  split
  · exact answers_raise hs _ _
  · exact answers_respond hs _ _

theorem answers_execFrmCheck (hs : P s) (frame : Frame) : Answers P (execFrmCheck frame s) := by
  unfold execFrmCheck
  split
  · exact answers_respond hs _ _
  · exact answers_raise hs _ _

theorem answers_execFrmEnc (hs : P s) (frame : Frame) : Answers P (execFrmEnc frame s) := by
  unfold execFrmEnc
  split
  · split
    · exact answers_raise hs _ _
    · exact answers_respond hs _ _
  · exact answers_refused _

theorem answers_answerIndex (hs : P s) (channel : Byte) (found : Option (BufferClass × Nat)) :
    Answers P (answerIndex channel found s) := by
  unfold answerIndex
  split
  · exact answers_refused _
  · split
    · exact answers_raise hs _ _
    · exact answers_respond hs _ _

end Answering

/-! ### Stores to the tables -/

/-- One store to an aligned, backed slot, or one barrier. -/
inductive TableWrite : State → State → Prop
  | store {s : State} {a : Word64} (v : Word64) (haligned : a.toNat % 8 = 0)
      (hbacked : slotBacked s.cfg a = true) : TableWrite s (s.storeSlot a v)
  | barrier (s : State) : TableWrite s s.barrier

/-- Any number of stores to aligned, backed slots, and barriers. -/
abbrev TableWrites : State → State → Prop := Relation.ReflTransGen TableWrite

/-- Stores and barriers change `TM` and the two records of what the walker may miss, and nothing else. -/
theorem TableWrites.frame {s t : State} (h : TableWrites s t) :
    ∃ tm unsynced opWindow,
      t = { s with tm := tm, unsynced := unsynced, opWindow := opWindow } := by
  induction h with
  | refl => exact ⟨_, _, _, rfl⟩
  | tail _ hstep ih =>
    obtain ⟨tm, unsynced, opWindow, rfl⟩ := ih
    cases hstep with
    | store => exact ⟨_, _, _, rfl⟩
    | barrier => exact ⟨_, _, _, rfl⟩

/-- A step made of two parts that write the tables writes the tables. -/
theorem Progress.EndsIn.andThen {s : State} {p : Progress} {k : State → Progress}
    (hp : p.EndsIn (TableWrites s)) (hk : ∀ u, (k u).EndsIn (TableWrites u)) :
    (p.andThen k).EndsIn (TableWrites s) := by
  cases p with
  | raised e u => exact hp
  | fault f => trivial
  | refused r => trivial
  | ok u =>
    have hku := hk u
    rw [Progress.andThen_ok]
    revert hku
    cases k u with
    | ok t => exact hp.trans
    | raised e t => exact hp.trans
    | fault f => exact id
    | refused r => exact id

theorem memWrite_endsIn (a v : Word64) (s : State) : (memWrite a v s).EndsIn (TableWrites s) := by
  rcases memWrite_cases a v s with ⟨haligned, hbacked, h⟩ | ⟨-, h⟩ | ⟨-, -, h⟩ <;> rw [h]
  · exact .single (.store v haligned hbacked)
  · trivial
  · trivial

theorem fillSlots_endsIn (basePtr : Word64) (slot : Nat) (ds : List Word64) (s : State) :
    (fillSlots basePtr slot ds s).EndsIn (TableWrites s) := by
  induction ds generalizing slot s with
  | nil => exact .refl
  | cons d ds ih => exact (memWrite_endsIn _ d s).andThen (ih (slot + 1))

theorem fillTable_endsIn (basePtr : Word64) (first : Nat) (ds : List Word64) (s : State) :
    (fillTable basePtr first ds s).EndsIn (TableWrites s) :=
  (fillSlots_endsIn basePtr first ds s).andThen fun u => .single (.barrier u)

theorem checkAlign_endsIn (l : Level) (vals : List Word64) (s : State) :
    (checkAlign l vals s).EndsIn (TableWrites s) := by
  rcases checkAlign_cases l vals s with ⟨-, h⟩ | ⟨-, -, h⟩ | ⟨-, -, h⟩ <;> rw [h]
  · exact .refl
  · exact .refl
  · trivial

theorem linkStep_endsIn (r : TableRecord) (va child : Word64) (s : State) :
    (linkStep r va child s).EndsIn (TableWrites s) := by
  unfold linkStep
  split
  · exact .refl
  · refine (checkAlign_endsIn _ _ s).andThen fun u => ?_
    split
    · trivial
    · exact fillTable_endsIn _ _ _ u

theorem rangeStep_endsIn (r : TableRecord) (va pa size : Word64) (descs : Level → Nat → List Word64)
    (s : State) : (rangeStep r va pa size descs s).EndsIn (TableWrites s) := by
  unfold rangeStep
  split
  · exact .refl
  · refine (checkAlign_endsIn _ _ s).andThen fun u => ?_
    split
    · trivial
    · exact fillTable_endsIn _ _ _ u

theorem linkSegments_endsIn (gs : List Segment) (s : State) :
    (linkSegments gs s).EndsIn (TableWrites s) := by
  induction gs generalizing s with
  | nil => exact .refl
  | cons g gs ih => exact (linkStep_endsIn _ _ _ s).andThen ih

theorem regionStep_endsIn (g : Segment) (r : Region) (s : State) :
    (regionStep g r s).EndsIn (TableWrites s) := by
  unfold regionStep
  split
  · exact rangeStep_endsIn _ _ _ _ _ s
  · exact rangeStep_endsIn _ _ _ _ _ s

theorem buildRegions_endsIn (rs : List Region) (s : State) :
    (buildRegions rs s).EndsIn (TableWrites s) := by
  induction rs generalizing s with
  | nil => trivial
  | cons r rs ih =>
    unfold buildRegions
    split
    · exact .refl
    · split
      · exact .refl
      · exact (regionStep_endsIn _ r s).andThen ih

theorem buildStep_endsIn (count : Nat) (regions : List Region) (s : State) :
    (buildStep count regions s).EndsIn (TableWrites s) :=
  (linkSegments_endsIn _ s).andThen (buildRegions_endsIn _)

/-! ### Everything an operation can do -/

/-- What an operation can do to the state before it answers: nothing; stores to the tables; activation;
placing an image in a transmit buffer; taking an image from a receive buffer. -/
inductive Effect : Instr → State → State → Prop
  | nothing (i : Instr) (s : State) : Effect i s s
  | tables {i : Instr} {s u : State} (hi : i.opcode ∈ [0x13, 0x21, 0x22, 0x23, 0x24])
      (hu : TableWrites s u) : Effect i s u
  | activate (s : State) : Effect .ptActivate s s.activate
  | placeMb {ch : Byte} {index : Word32} {frame : Frame} {s : State} {h : Nat} {b : TxBuffer}
      (img : Image) (hb : s.txmb[h]? = some b) (hidle : b.busy = false) :
      Effect (.canWrite ch index frame) s (s.setTxmb h (requestTransmit img))
  | placeCFifo {ch : Byte} {index : Word32} {frame : Frame} {s : State} {h : Nat} {f : CommonFifo}
      (img : Image) (hf : s.cfifo[h]? = some f) (hroom : queueFull s.cfg f.txq = false) :
      Effect (.canWrite ch index frame) s (s.setCFifo h { f with txq := f.txq ++ [img] })
  | takeMb {ch : Byte} {index : Word32} {s : State} {h : Nat} {b : RxBuffer}
      (hb : s.rxmb[h]? = some b) (hnew : b.newdata = true) :
      Effect (.canRead ch index) s (s.setRxmb h (clearNewData b))
  | takeRxFifo {ch : Byte} {index : Word32} {s : State} {h : Nat} {img : Image} {q : List Image}
      (hq : s.rxfifo[h]? = some (img :: q)) : Effect (.canRead ch index) s (s.setRxFifo h q)
  | takeCFifo {ch : Byte} {index : Word32} {s : State} {h : Nat} {txq rxq : List Image} {img : Image}
      (hf : s.cfifo[h]? = some ⟨txq, img :: rxq⟩) :
      Effect (.canRead ch index) s (s.setCFifo h ⟨txq, rxq⟩)

theorem answers_tables {i : Instr} {p : Progress} {s : State} (hp : p.EndsIn (TableWrites s))
    (hi : i.opcode ∈ [0x13, 0x21, 0x22, 0x23, 0x24]) : Answers (Effect i s) p.answer := by
  intro t ht
  obtain ⟨u, e, r, hu, rfl⟩ := hp.answers t ht
  exact ⟨u, e, r, .tables hi hu, rfl⟩

theorem placeFrame_endsIn {P : State → Prop} {s : State} (hs : P s) {place : Image → Progress}
    (hplace : ∀ img, (place img).EndsIn P) (frame : Frame) (old : Image) :
    (placeFrame frame old place s).EndsIn P := by
  rcases placeFrame_cases frame old place s with
    ⟨-, h⟩ | ⟨-, -, h⟩ | ⟨-, -, -, h⟩ | ⟨img, -, -, -, h⟩ <;> rw [h]
  · exact hs
  · trivial
  · exact hs
  · exact hplace img

section CanWrite

variable (ch : Byte) (index : Word32) (frame : Frame) (h : Nat) (s : State)

theorem writeMb_endsIn : (writeMb h frame s).EndsIn (Effect (.canWrite ch index frame) s) := by
  unfold writeMb
  split
  · trivial
  · next b hb =>
    split
    · exact .nothing _ s
    · next hidle =>
      refine placeFrame_endsIn (.nothing _ s) (fun img => ?_) _ _
      exact Effect.placeMb img hb (Bool.eq_false_iff.2 hidle)

theorem writeCFifo_endsIn : (writeCFifo h frame s).EndsIn (Effect (.canWrite ch index frame) s) := by
  refine placeFrame_endsIn (.nothing _ s) (fun img => ?_) _ _
  rcases appendCFifo_cases h img s with ⟨-, he⟩ | ⟨f, hf, ⟨-, he⟩ | ⟨hroom, he⟩⟩ <;> rw [he]
  · trivial
  · trivial
  · exact .placeCFifo img hf hroom

theorem writeStep_endsIn :
    (writeStep ch index frame s).EndsIn (Effect (.canWrite ch index frame) s) := by
  unfold writeStep
  split
  · trivial
  · split
    · exact .nothing _ s
    · exact .nothing _ s
    · exact writeMb_endsIn ch index frame _ s
    · exact writeCFifo_endsIn ch index frame _ s

end CanWrite

section CanRead

variable (ch : Byte) (index : Word32) (h : Nat) (s : State)

theorem answers_readMb : Answers (Effect (.canRead ch index) s) (readMb h s) := by
  unfold readMb
  split
  · exact answers_fault _
  · next b hb =>
    split
    · next hnew => exact answers_respond (.takeMb hb hnew) _ _
    · exact answers_raise (.nothing _ s) _ _

theorem answers_readRxFifo : Answers (Effect (.canRead ch index) s) (readRxFifo h s) := by
  unfold readRxFifo
  split
  · exact answers_fault _
  · exact answers_raise (.nothing _ s) _ _
  · next hq => exact answers_respond (.takeRxFifo hq) _ _

theorem answers_readCFifo : Answers (Effect (.canRead ch index) s) (readCFifo h s) := by
  unfold readCFifo
  split
  · exact answers_fault _
  · exact answers_raise (.nothing _ s) _ _
  · next hf => exact answers_respond (.takeCFifo hf) _ _

theorem answers_execCanRead :
    Answers (Effect (.canRead ch index) s) (execCanRead ch index s) := by
  unfold execCanRead
  split
  · exact answers_refused _
  · split
    · exact answers_raise (.nothing _ s) _ _
    · exact answers_readMb ch index _ s
    · exact answers_readRxFifo ch index _ s
    · exact answers_readCFifo ch index _ s

end CanRead

/-- Every next state of an operation is the state after its effect, with the response added. -/
theorem exec_answers (i : Instr) (s : State) : Answers (Effect i s) (exec i s) := by
  have hs : Effect i s s := .nothing i s
  cases i with
  | pdFault => exact answers_respond hs _ _
  | pdLink addr => exact answers_respond hs _ _
  | pdBlock level addr attr => exact answers_execPdBlock hs level addr attr
  | pdWrite a v => exact answers_tables (memWrite_endsIn a v s) (by simp [Instr.opcode])
  | ptAlloc => exact answers_raise hs _ _
  | ptLink level basePtr baseVa va child =>
    exact answers_tables (linkStep_endsIn _ va child s) (by simp [Instr.opcode])
  | ptMap level basePtr baseVa va pa size attr =>
    exact answers_tables (rangeStep_endsIn _ va pa size _ s) (by simp [Instr.opcode])
  | ptFault level basePtr baseVa va pa size =>
    exact answers_tables (rangeStep_endsIn _ va pa size _ s) (by simp [Instr.opcode])
  | ptBuild count regions =>
    exact answers_tables (buildStep_endsIn _ regions s) (by simp [Instr.opcode])
  | ptActivate => exact answers_respond (.activate s) _ _
  | atV2p addr => exact answers_respond hs _ _
  | atP2v addr => exact answers_respond hs _ _
  | dlcB2c n => exact answers_execDlcB2c hs n
  | dlcC2b n => exact answers_execDlcC2b hs n
  | frmCheck frame => exact answers_execFrmCheck hs frame
  | idxClassW channel index => exact answers_answerIndex hs channel _
  | idxClassR channel index => exact answers_answerIndex hs channel _
  | frmEnc frame => exact answers_execFrmEnc hs frame
  | frmDec img => exact answers_respond hs _ _
  | canWrite channel index frame => exact (writeStep_endsIn channel index frame s).answers
  | canRead channel index => exact answers_execCanRead channel index s

/-! ### What an effect leaves alone -/

section EffectFrame

variable {i : Instr} {s u : State}

theorem Effect.cpuRegisters (hu : Effect i s u) (hi : i ≠ .ptActivate) :
    u.mair = s.mair ∧ u.tcr = s.tcr ∧ u.ttbr = s.ttbr := by
  cases hu with
  | tables _ hw => obtain ⟨_, _, _, rfl⟩ := hw.frame; exact ⟨rfl, rfl, rfl⟩
  | activate => exact absurd rfl hi
  | _ => exact ⟨rfl, rfl, rfl⟩

theorem Effect.tables_alone (hu : Effect i s u) (hi : i.opcode ∉ [0x13, 0x21, 0x22, 0x23, 0x24]) :
    u.tm = s.tm ∧ u.opWindow = s.opWindow := by
  cases hu with
  | tables hmem _ => exact absurd hmem hi
  | _ => exact ⟨rfl, rfl⟩

theorem Effect.unsynced_alone (hu : Effect i s u)
    (hi : i.opcode ∉ [0x13, 0x21, 0x22, 0x23, 0x24, 0x25]) : u.unsynced = s.unsynced := by
  cases hu with
  | tables hmem _ => exact absurd (List.mem_append_left [0x25] hmem) hi
  | activate => simp [Instr.opcode] at hi
  | _ => rfl

theorem Effect.buffers_alone (hu : Effect i s u) (hi : i.opcode ∉ [0x37, 0x38]) :
    u.txmb = s.txmb ∧ u.rxmb = s.rxmb ∧ u.rxfifo = s.rxfifo ∧ u.cfifo = s.cfifo := by
  cases hu with
  | nothing => exact ⟨rfl, rfl, rfl, rfl⟩
  | tables _ hw => obtain ⟨_, _, _, rfl⟩ := hw.frame; exact ⟨rfl, rfl, rfl, rfl⟩
  | activate => exact ⟨rfl, rfl, rfl, rfl⟩
  | _ => simp [Instr.opcode] at hi

theorem Effect.environment_alone (hu : Effect i s u) :
    u.inputs = s.inputs ∧ u.walkerSees = s.walkerSees := by
  cases hu with
  | tables _ hw => obtain ⟨_, _, _, rfl⟩ := hw.frame; exact ⟨rfl, rfl⟩
  | _ => exact ⟨rfl, rfl⟩

/-! ### What an effect does to the CAN buffers -/

/-- Only the peripheral clears a busy bit (`10_state.md` R23). -/
theorem Effect.busy_stays (hu : Effect i s u) {h : Nat} {b : TxBuffer} (hb : s.txmb[h]? = some b)
    (hbusy : b.busy = true) : ∃ b', u.txmb[h]? = some b' ∧ b'.busy = true := by
  cases hu with
  | tables _ hw => obtain ⟨_, _, _, rfl⟩ := hw.frame; exact ⟨b, hb, hbusy⟩
  | @placeMb _ _ _ _ h' _ img =>
    by_cases heq : h' = h
    · have hlt : h < s.txmb.length := (List.getElem?_eq_some_iff.1 hb).1
      exact ⟨requestTransmit img, by simp [heq, hlt], rfl⟩
    · exact ⟨b, by simp [heq, hb], hbusy⟩
  | _ => exact ⟨b, hb, hbusy⟩

/-- Only the peripheral sets a new-data bit (`10_state.md` R24). -/
theorem Effect.newdata_was_set (hu : Effect i s u) {h : Nat} {b' : RxBuffer}
    (hb : u.rxmb[h]? = some b') (hnew : b'.newdata = true) :
    ∃ b, s.rxmb[h]? = some b ∧ b.newdata = true := by
  cases hu with
  | tables _ hw => obtain ⟨_, _, _, rfl⟩ := hw.frame; exact ⟨b', hb, hnew⟩
  | @takeMb _ _ _ h' b hold _ =>
    by_cases heq : h' = h
    · have hlt : h' < s.rxmb.length := (List.getElem?_eq_some_iff.1 hold).1
      have hcleared : clearNewData b = b' := by simpa [← heq, hlt] using hb
      simp [← hcleared, clearNewData] at hnew
    · exact ⟨b', by simpa [heq] using hb, hnew⟩
  | _ => exact ⟨b', hb, hnew⟩

theorem Effect.rxfifo_loses_head (hu : Effect i s u) {k : Nat} {q : List Image}
    (hq : s.rxfifo[k]? = some q) :
    u.rxfifo[k]? = some q ∨ ∃ img q', q = img :: q' ∧ u.rxfifo[k]? = some q' := by
  cases hu with
  | tables _ hw => obtain ⟨_, _, _, rfl⟩ := hw.frame; exact .inl hq
  | @takeRxFifo _ _ _ h img q' hhead =>
    by_cases heq : h = k
    · subst heq
      obtain rfl : img :: q' = q := Option.some.inj (hhead.symm.trans hq)
      have hlt : h < s.rxfifo.length := (List.getElem?_eq_some_iff.1 hq).1
      exact .inr ⟨img, q', rfl, by simp [hlt]⟩
    · exact .inl (by simp [heq, hq])
  | _ => exact .inl hq

theorem Effect.cfifo_rxq_loses_head (hu : Effect i s u) {k : Nat} {f : CommonFifo}
    (hf : s.cfifo[k]? = some f) :
    ∃ f', u.cfifo[k]? = some f'
      ∧ (f'.rxq = f.rxq ∨ ∃ img q', f.rxq = img :: q' ∧ f'.rxq = q') := by
  have hlt : k < s.cfifo.length := (List.getElem?_eq_some_iff.1 hf).1
  cases hu with
  | tables _ hw => obtain ⟨_, _, _, rfl⟩ := hw.frame; exact ⟨f, hf, .inl rfl⟩
  | @placeCFifo _ _ _ _ h g img hg _ =>
    by_cases heq : h = k
    · subst heq
      obtain rfl : g = f := Option.some.inj (hg.symm.trans hf)
      exact ⟨{ g with txq := g.txq ++ [img] }, by simp [hlt], .inl rfl⟩
    · exact ⟨f, by simp [heq, hf], .inl rfl⟩
  | @takeCFifo _ _ _ h txq rxq img hhead =>
    by_cases heq : h = k
    · subst heq
      obtain rfl : ⟨txq, img :: rxq⟩ = f := Option.some.inj (hhead.symm.trans hf)
      exact ⟨⟨txq, rxq⟩, by simp [hlt], .inr ⟨img, rxq, rfl, rfl⟩⟩
    · exact ⟨f, by simp [heq, hf], .inl rfl⟩
  | _ => exact ⟨f, hf, .inl rfl⟩

end EffectFrame

/-! ### Everything the CAN peripheral can do (`10_state.md` R39) -/

section Peripheral

variable {s t : State}

theorem peripheralTxDone_eq_next {h : Nat} :
    peripheralTxDone h s = .next t
      ↔ ∃ b, s.txmb[h]? = some b ∧ b.busy = true ∧ t = s.setTxmb h (clearBusy b) := by
  unfold peripheralTxDone
  cases s.txmb[h]? with
  | none => simp
  | some b => cases hb : b.busy <;> simp [transmitInProgress, hb, @eq_comm _ t]

theorem peripheralDeliverMb_eq_next {h : Nat} {img : Image} :
    peripheralDeliverMb h img s = .next t
      ↔ ∃ b, s.rxmb[h]? = some b ∧ t = s.setRxmb h (deliver img) := by
  unfold peripheralDeliverMb
  cases s.rxmb[h]? <;> simp [eq_comm]

theorem peripheralDeliverRxFifo_eq_next {k : Nat} {img : Image} :
    peripheralDeliverRxFifo k img s = .next t
      ↔ ∃ q, s.rxfifo[k]? = some q ∧ t = s.setRxFifo k (q ++ [img]) := by
  unfold peripheralDeliverRxFifo
  cases s.rxfifo[k]? <;> simp [eq_comm]

theorem peripheralDeliverCFifo_eq_next {k : Nat} {img : Image} :
    peripheralDeliverCFifo k img s = .next t
      ↔ ∃ f, s.cfifo[k]? = some f ∧ t = s.setCFifo k { f with rxq := f.rxq ++ [img] } := by
  unfold peripheralDeliverCFifo
  cases s.cfifo[k]? <;> simp [eq_comm]

theorem peripheralCFifoSent_eq_next {k : Nat} :
    peripheralCFifoSent k s = .next t
      ↔ ∃ img txq rxq, s.cfifo[k]? = some ⟨img :: txq, rxq⟩ ∧ t = s.setCFifo k ⟨txq, rxq⟩ := by
  unfold peripheralCFifoSent
  rcases s.cfifo[k]? with - | ⟨- | ⟨img, txq⟩, rxq⟩ <;> simp [eq_comm]

end Peripheral

/-- A walker read changes nothing but what the walker saw. -/
theorem walkerRead_frame {a : Word64} {within : Bool} {choice : Nat} {s t : State}
    (h : walkerRead a within choice s = .next t) : ∃ v, t = { s with walkerSees := v } := by
  unfold walkerRead at h
  split at h
  · split at h
    · cases h
    · cases h; exact ⟨_, rfl⟩
  · cases h

/-! ### What keeps the invariant -/

section Invariant

variable {s t u : State}

theorem Inv.respond (hs : Inv s) (e : Status) (r : Result) : Inv (s.respond e r) := hs

/-- What is still invisible when an operation begins is of aligned, backed slots. -/
theorem Inv.beginOp (hs : Inv s) : Inv s.beginOp := by
  obtain ⟨hwf, hbanks, hdepth, hsuffix, hslots⟩ := hs
  exact ⟨hwf, hbanks, hdepth, List.suffix_rfl, fun w hw => hslots w (hsuffix.subset hw)⟩

theorem Inv.barrier (hs : Inv s) : Inv s.barrier := by
  obtain ⟨hwf, hbanks, hdepth, -, hslots⟩ := hs
  exact ⟨hwf, hbanks, hdepth, List.nil_suffix, hslots⟩

theorem Inv.activate (hs : Inv s) : Inv s.activate := hs.barrier

theorem Inv.storeSlot (hs : Inv s) {a : Word64} (v : Word64) (haligned : a.toNat % 8 = 0)
    (hbacked : slotBacked s.cfg a = true) : Inv (s.storeSlot a v) := by
  obtain ⟨hwf, hbanks, hdepth, ⟨seen, hseen⟩, hslots⟩ := hs
  refine ⟨Memory.wf_setSlot _ _ _ (by omega) hwf, hbanks, hdepth, ⟨seen, ?_⟩, fun w hw => ?_⟩
  · simp [← hseen]
  · rcases List.mem_append.1 hw with hold | hnew
    · exact hslots w hold
    · obtain rfl := List.mem_singleton.1 hnew
      exact ⟨haligned, hbacked⟩

theorem Inv.tableWrites (hs : Inv s) (hw : TableWrites s t) : Inv t := by
  induction hw with
  | refl => exact hs
  | tail _ hstep ih =>
    cases hstep with
    | store v haligned hbacked => exact ih.storeSlot v haligned hbacked
    | barrier => exact ih.barrier

theorem Inv.setTxmb (hs : Inv s) (h : Nat) (b : TxBuffer) : Inv (s.setTxmb h b) := by
  obtain ⟨hwf, hbanks, hrest⟩ := hs
  exact ⟨hwf, by simpa [banksOk] using hbanks, hrest⟩

theorem Inv.setRxmb (hs : Inv s) (h : Nat) (b : RxBuffer) : Inv (s.setRxmb h b) := by
  obtain ⟨hwf, hbanks, hrest⟩ := hs
  exact ⟨hwf, by simpa [banksOk] using hbanks, hrest⟩

theorem Inv.setRxFifo (hs : Inv s) (k : Nat) (q : List Image) : Inv (s.setRxFifo k q) := by
  obtain ⟨hwf, hbanks, hrest⟩ := hs
  exact ⟨hwf, by simpa [banksOk] using hbanks, hrest⟩

theorem Inv.setCFifo (hs : Inv s) (k : Nat) {f : CommonFifo}
    (hf : ∀ d, s.cfg.fifoDepth = some d → f.txq.length ≤ d) : Inv (s.setCFifo k f) := by
  obtain ⟨hwf, hbanks, hdepth, hrest⟩ := hs
  refine ⟨hwf, by simpa [banksOk] using hbanks, fun g hg => ?_, hrest⟩
  rcases List.mem_or_eq_of_mem_set hg with hold | rfl
  · exact hdepth g hold
  · exact hf

theorem Inv.txq_le (hs : Inv s) {k : Nat} {f : CommonFifo} (hf : s.cfifo[k]? = some f) (d : Nat)
    (hd : s.cfg.fifoDepth = some d) : f.txq.length ≤ d := by
  obtain ⟨-, -, hdepth, -⟩ := hs
  exact hdepth f (List.mem_of_getElem? hf) d hd

/-- A queue that is not full has room for one image (`44_can_frame.md` R216). -/
theorem lt_of_queueFull_eq_false {c : Cfg} {q : List Image} (h : queueFull c q = false) (d : Nat)
    (hd : c.fifoDepth = some d) : q.length < d := by
  simpa [queueFull, hd] using h

theorem Inv.effect {i : Instr} (hs : Inv s) (hu : Effect i s u) : Inv u := by
  cases hu with
  | nothing => exact hs
  | tables _ hw => exact hs.tableWrites hw
  | activate => exact hs.activate
  | placeMb => exact hs.setTxmb _ _
  | placeCFifo img hf hroom =>
    exact hs.setCFifo _ fun d hd => by simpa using lt_of_queueFull_eq_false hroom d hd
  | takeMb => exact hs.setRxmb _ _
  | takeRxFifo => exact hs.setRxFifo _ _
  | takeCFifo hf => exact hs.setCFifo _ (hs.txq_le hf :)

theorem Inv.exec {i : Instr} (hs : Inv s) (h : exec i s = .next t) : Inv t := by
  obtain ⟨u, e, r, hu, rfl⟩ := exec_answers i s t h
  exact (hs.effect hu).respond e r

/-- MMU.OPEN is PT.BUILD and then, perhaps, PT.ACTIVATE (`30_encoding.md` R89). -/
theorem Inv.execMmuOpen {regions : List Region} (hs : Inv s)
    (h : execMmuOpen regions s = .next t) : Inv t := by
  unfold Machine.execMmuOpen at h
  split at h
  · split at h
    · next u hbuild =>
      have hu : Inv u := hs.exec (i := .ptBuild _ regions) hbuild
      split at h
      · exact hu.exec (i := .ptActivate) h
      · cases h; exact hu
    · cases h
    · cases h
  · cases h

theorem Inv.runRequest {bits : Bits} (hs : Inv s) (h : runRequest bits s = .next t) : Inv t := by
  unfold Machine.runRequest at h
  split at h
  · exact hs.beginOp.exec h
  · cases h; exact hs.beginOp.respond _ _
  · cases h
  · cases h

theorem Inv.takeInput {input : Input} (hs : Inv s) (h : takeInput input s = .next t) : Inv t := by
  cases input with
  | request bits => exact hs.runRequest h
  | mmuOpen => exact hs.beginOp.execMmuOpen h
  | requesterBarrier => cases h; exact hs.barrier
  | txDone n =>
    obtain ⟨b, -, -, rfl⟩ := peripheralTxDone_eq_next.1 h
    exact hs.setTxmb n _
  | deliverMb n img =>
    obtain ⟨b, -, rfl⟩ := peripheralDeliverMb_eq_next.1 h
    exact hs.setRxmb n _
  | deliverRxFifo k img =>
    obtain ⟨q, -, rfl⟩ := peripheralDeliverRxFifo_eq_next.1 h
    exact hs.setRxFifo k _
  | deliverCFifo k img =>
    obtain ⟨f, hf, rfl⟩ := peripheralDeliverCFifo_eq_next.1 h
    exact hs.setCFifo k (hs.txq_le hf :)
  | cFifoSent k =>
    obtain ⟨img, txq, rxq, hf, rfl⟩ := peripheralCFifoSent_eq_next.1 h
    exact hs.setCFifo k fun d hd => Nat.le_of_succ_le (hs.txq_le hf d hd)
  | walkerRead a within choice =>
    obtain ⟨v, rfl⟩ := walkerRead_frame h
    exact hs

theorem Inv.step (hs : Inv s) (h : step s = .next t) : Inv t := by
  unfold Machine.step advance at h
  split at h
  · cases h; exact hs
  · next input rest _ =>
    have hrest : Inv { s with inputs := rest } := hs
    exact hrest.takeInput h

end Invariant

/-! ### The statements of `10_state.md` -/

/-- Settles O51, by the invariant lemma of each agent's move. -/
theorem stepKeepsInvariant : Obligations.StepKeepsInvariant := fun _ _ hs h => hs.step h

/-- Settles O47: no effect but activation writes the three registers. -/
theorem onlyActivateWritesCpuRegisters : Obligations.OnlyActivateWritesCpuRegisters := by
  intro i s t hi h
  obtain ⟨u, e, r, hu, rfl⟩ := exec_answers i s t h
  exact hu.cpuRegisters hi

/-- Settles O48, store by store, from the frame of each effect. -/
theorem operationsKeepToTheirStores : Obligations.OperationsKeepToTheirStores := by
  intro i s t h
  obtain ⟨u, e, r, hu, rfl⟩ := exec_answers i s t h
  exact ⟨hu.tables_alone, hu.unsynced_alone, hu.buffers_alone, hu.environment_alone⟩

/-- Settles O49, bank by bank, from what each effect does to the CAN buffers. -/
theorem blockNeverClearsBusyNorSetsNewData : Obligations.BlockNeverClearsBusyNorSetsNewData := by
  intro i s t h
  obtain ⟨u, e, r, hu, rfl⟩ := exec_answers i s t h
  exact ⟨fun _ _ => hu.busy_stays, fun _ _ => hu.newdata_was_set, fun _ _ => hu.rxfifo_loses_head,
    fun _ _ => hu.cfifo_rxq_loses_head⟩

/-- Settles O42, from what each move of the peripheral can do. -/
theorem peripheralMovesChangeOneBuffer : Obligations.PeripheralMovesChangeOneBuffer := by
  intro s
  refine ⟨fun h b hb hbusy => ?_, fun h b img hb => ?_, fun k q img hq => ?_,
    fun k f img hf => ?_, fun k img txq rxq hf => ?_⟩
  · exact peripheralTxDone_eq_next.2 ⟨b, hb, hbusy, rfl⟩
  · exact peripheralDeliverMb_eq_next.2 ⟨b, hb, rfl⟩
  · exact peripheralDeliverRxFifo_eq_next.2 ⟨q, hq, rfl⟩
  · exact peripheralDeliverCFifo_eq_next.2 ⟨f, hf, rfl⟩
  · exact peripheralCFifoSent_eq_next.2 ⟨img, txq, rxq, hf, rfl⟩

end Sys2Proof.Machine

/-! The statements of `20_memory.md`: where a slot lies (R56), how a payload lies in 32-bit data words
(R50), what `Walk` reads through a link and a level-2 slot (R66), and what the table walker may see of a
store before and after a barrier (R52, R57, R58). -/

namespace Sys2Proof.Machine

/-! ### Slot numbers and slot addresses (`20_memory.md` R56) -/

/-- A slot address that does not pass 2^64 is the integer sum (log 23). -/
theorem slotAddr_toNat {base : Word64} {n : Nat} (h : base.toNat + 8 * n < 2 ^ 64) :
    (slotAddr base n).toNat = base.toNat + 8 * n := by
  simp only [slotAddr, BitVec.toNat_add, BitVec.toNat_ofNat]
  omega

theorem extractLsb'_30_2_toNat {va : Word64} (h : va.toNat < 2 ^ 32) :
    (va.extractLsb' 30 2).toNat = va.toNat / 2 ^ 30 := by
  rw [BitVec.extractLsb'_toNat, Nat.shiftRight_eq_div_pow]
  omega

theorem extractLsb'_21_9_toNat (va : Word64) :
    (va.extractLsb' 21 9).toNat = va.toNat / 2 ^ 21 % 512 := by
  rw [BitVec.extractLsb'_toNat, Nat.shiftRight_eq_div_pow]

/-- Inside the 1 GiB that starts at an aligned base, the offset's level-2 slot is a field of the address. -/
theorem slotOf_l2_of_aligned {baseVa va : Word64} (haligned : baseVa.toNat % 2 ^ 30 = 0)
    (hle : baseVa.toNat ≤ va.toNat) (hlt : va.toNat < baseVa.toNat + 2 ^ 30) :
    slotOf .l2 baseVa va = va.toNat / 2 ^ 21 % 512 := by
  simp only [slotOf, strideOf]
  omega

/-- Settles O13, clause by clause: the definition, the sum below 2^64, and the two fields of the address. -/
theorem slotNumberIsVaField : Obligations.SlotNumberIsVaField := by
  refine ⟨fun _ _ _ => rfl, fun _ _ => slotAddr_toNat, fun va hva => ?_,
    fun baseVa va haligned hle hlt => ?_⟩
  · rw [extractLsb'_30_2_toNat hva]
    rfl
  · rw [slotOf_l2_of_aligned haligned hle hlt, extractLsb'_21_9_toNat]

/-! ### A payload in data words (`20_memory.md` R50) -/

theorem extractLsb'_append_byte {w : Nat} (x : BitVec w) (b : Byte) (n : Nat) :
    (x ++ b).extractLsb' (n + 8) 8 = x.extractLsb' n 8 := by
  rw [BitVec.extractLsb'_append_eq_of_le (by omega), Nat.add_sub_cancel]

/-- Byte `k` of four bytes put together, number 0 lowest. -/
theorem extractLsb'_append_bytes (b : Fin 4 → Byte) (k : Fin 4) :
    (b 3 ++ b 2 ++ b 1 ++ b 0).extractLsb' (8 * k.val) 8 = b k := by
  have hlow {w : Nat} (x : BitVec w) (y : Byte) : (x ++ y).extractLsb' 0 8 = y :=
    BitVec.extractLsb'_append_eq_right
  match k with
  | 0 => exact hlow _ _
  | 1 => exact (extractLsb'_append_byte _ _ 0).trans (hlow _ _)
  | 2 =>
    exact (extractLsb'_append_byte _ _ 8).trans
      ((extractLsb'_append_byte _ _ 0).trans (hlow _ _))
  | 3 =>
    exact (extractLsb'_append_byte _ _ 16).trans
      ((extractLsb'_append_byte _ _ 8).trans BitVec.extractLsb'_append_eq_left)

/-- Four consecutive bytes of a 32-bit word put together are the word. -/
theorem append_extractLsb'_bytes (w : Word32) :
    w.extractLsb' 24 8 ++ w.extractLsb' 16 8 ++ w.extractLsb' 8 8 ++ w.extractLsb' 0 8 = w := by
  apply BitVec.eq_of_getLsbD_eq
  intro i hi
  simp only [BitVec.getLsbD_append, BitVec.getLsbD_extractLsb']
  interval_cases i <;> simp

/-- Byte `k` of data word `j`, counted from bits 7:0, is payload byte `4*j + k`. -/
theorem dataWord_extractLsb' (data : Vector Byte 64) (j : Fin 16) (k : Fin 4) :
    (dataWord data j).extractLsb' (8 * k.val) 8 = data[4 * j.val + k.val] :=
  extractLsb'_append_bytes (fun k => data[4 * j.val + k.val]) k

theorem dataWords_extractLsb' (data : Vector Byte 64) (i : Fin 64) :
    (dataWords data)[i.val / 4].extractLsb' (8 * (i.val % 4)) 8 = data[i] := by
  have hbyte := dataWord_extractLsb' data ⟨i.val / 4, by omega⟩ ⟨i.val % 4, by omega⟩
  simpa [dataWords, Nat.div_add_mod] using hbyte

/-- Payload byte `4*j + k` of sixteen data words is byte `k` of word `j`. -/
theorem dataOfWords_getElem (words : Vector Word32 16) (j : Fin 16) (k : Nat) (hk : k < 4) :
    (dataOfWords words)[4 * j.val + k] = words[j].extractLsb' (8 * k) 8 := by
  have hword : (4 * j.val + k) / 4 = j.val := by omega
  have hbyte : (4 * j.val + k) % 4 = k := by omega
  simp [dataOfWords, hword, hbyte]

theorem dataWord_dataOfWords (words : Vector Word32 16) (j : Fin 16) :
    dataWord (dataOfWords words) j = words[j] := by
  have hbyte := dataOfWords_getElem words j
  have hbyte0 := hbyte 0 (by omega)
  simp only [Nat.add_zero] at hbyte0
  rw [dataWord, hbyte 3 (by omega), hbyte 2 (by omega), hbyte 1 (by omega), hbyte0]
  exact append_extractLsb'_bytes words[j]

/-- Settles O60: the bytes of a word are read back one by one, and the two views are inverse. -/
theorem payloadBytesLieInDataWords : Obligations.PayloadBytesLieInDataWords := by
  refine ⟨dataWords_extractLsb', fun data => ?_, fun words => ?_⟩
  · ext i hi : 1
    simpa [dataOfWords] using dataWords_extractLsb' data ⟨i, hi⟩
  · ext j hj : 1
    simpa [dataWords] using dataWord_dataOfWords words ⟨j, hj⟩

/-! ### Masks over descriptors -/

section Masks

variable {x m c : Word64}

/-- A word that is clear in `c` is kept by every mask that holds all other bits. -/
theorem and_eq_self_of_clear (hx : x &&& c = 0) (hm : m ||| c = BitVec.allOnes 64) : x &&& m = x := by
  calc x &&& m = x &&& m ||| x &&& c := by simp [hx]
    _ = x := by rw [← BitVec.and_or_distrib_left, hm, BitVec.and_allOnes]

/-- A word that is clear in `c` is clear in every part of `c`. -/
theorem and_eq_zero_of_clear (hx : x &&& c = 0) (hm : c &&& m = m) : x &&& m = 0 := by
  rw [← hm, ← BitVec.and_assoc, hx]
  simp

/-- A mask that keeps a word keeps no bit of it that the mask does not have. -/
theorem and_eq_zero_of_kept (hx : x &&& m = x) (hm : m &&& c = 0) : x &&& c = 0 := by
  rw [← hx, BitVec.and_assoc, hm]
  simp

/-- The tag ORed into a word that leaves bits 1:0 clear is read back from them. -/
theorem extractLsb'_or_tag (hx : x &&& 0b11 = 0) (tag : BitVec 2) :
    (x ||| tag.setWidth 64).extractLsb' 0 2 = tag := by
  have hlow : x.extractLsb' 0 2 = 0 := by
    calc x.extractLsb' 0 2 = (x &&& 0b11).extractLsb' 0 2 := by
          rw [BitVec.extractLsb'_and]; exact BitVec.and_allOnes.symm
      _ = 0 := by rw [hx]; rfl
  rw [BitVec.extractLsb'_or, hlow, BitVec.extractLsb'_setWidth_of_le (by omega),
    BitVec.extractLsb'_eq_self]
  exact BitVec.zero_or

/-- Bit 0 of a descriptor is bit 0 of its tag. -/
theorem getLsbD_zero_of_tag {tag : BitVec 2} (h : x.extractLsb' 0 2 = tag) :
    x.getLsbD 0 = tag.getLsbD 0 := by
  simp [← h]

end Masks

/-- A mask of the `n` low bits takes the remainder. -/
theorem toNat_and_low_bits (x : Word64) {n : Nat} (hn : n ≤ 64) :
    (x &&& BitVec.ofNat 64 (2 ^ n - 1)).toNat = x.toNat % 2 ^ n := by
  have hpow : 2 ^ n ≤ 2 ^ 64 := Nat.pow_le_pow_right (by omega) hn
  have hpos : 0 < 2 ^ n := Nat.two_pow_pos n
  rw [BitVec.toNat_and, BitVec.toNat_ofNat, Nat.mod_eq_of_lt (by omega),
    Nat.and_two_pow_sub_one_eq_mod]

/-- A 2 MiB aligned address below 2^48 has only the bits of `OA_MASK[2]`. -/
theorem blockAddress_clear {pa : Word64} (haligned : pa.toNat % 2 ^ 21 = 0)
    (hlt : pa.toNat < 2 ^ 48) : pa &&& 0xFFFF0000001FFFFF = 0 := by
  have hlow : pa &&& BitVec.ofNat 64 (2 ^ 21 - 1) = 0 :=
    BitVec.eq_of_toNat_eq ((toNat_and_low_bits pa (by omega)).trans haligned)
  have hkept : pa &&& BitVec.ofNat 64 (2 ^ 48 - 1) = pa :=
    BitVec.eq_of_toNat_eq ((toNat_and_low_bits pa (by omega)).trans (Nat.mod_eq_of_lt hlt))
  have hhigh : pa &&& 0xFFFF000000000000 = 0 := and_eq_zero_of_kept hkept (by decide)
  have hsplit : (0xFFFF0000001FFFFF : Word64)
      = BitVec.ofNat 64 (2 ^ 21 - 1) ||| 0xFFFF000000000000 := by decide
  rw [hsplit, BitVec.and_or_distrib_left, hlow, hhigh]
  simp

/-! ### `Walk` (`20_memory.md` R66) -/

section Walk

variable {s : State} {va d1 d2 : Word64}

/-- `Walk` through a link answers what the level-2 slot's block maps. -/
theorem walk_of_l2_block (h1 : memRead s (slotAddr s.cfg.l1Base (va.extractLsb' 30 2).toNat) = d1)
    (hvalid : d1.getLsbD 0 = true) (hlink : d1.extractLsb' 0 2 ≠ s.cfg.tagBlock.l1)
    (h2 : memRead s (slotAddr (d1 &&& s.cfg.nextMask) (va.extractLsb' 21 9).toNat) = d2)
    (hvalid2 : d2.getLsbD 0 = true) (hblock : d2.extractLsb' 0 2 = s.cfg.tagBlock.l2) :
    walk s va = mappedBy s.cfg .l2 21 d2 va := by
  simp only [walk, h1, hvalid, hlink, h2, hvalid2, hblock, if_true, if_false, reduceCtorEq]

/-- `Walk` through a link to a slot whose bit 0 is clear answers a fault. -/
theorem walk_of_l2_fault (h1 : memRead s (slotAddr s.cfg.l1Base (va.extractLsb' 30 2).toNat) = d1)
    (hlink : d1.extractLsb' 0 2 ≠ s.cfg.tagBlock.l1)
    (h2 : memRead s (slotAddr (d1 &&& s.cfg.nextMask) (va.extractLsb' 21 9).toNat) = d2)
    (hfault : d2.getLsbD 0 = false) : walk s va = .fault := by
  simp only [walk, h1, hlink, h2, hfault, if_true, if_false, ite_self]

end Walk

/-- A link descriptor of a table address has the link tag, and `NEXT_MASK` gives the address back. -/
theorem linkWord_fields {t2 : Word64} (ht2 : t2 &&& Cfg.launch.nextMask = t2) :
    (t2 ||| 0b11).extractLsb' 0 2 = 0b11 ∧ (t2 ||| 0b11) &&& Cfg.launch.nextMask = t2 := by
  refine ⟨extractLsb'_or_tag (and_eq_zero_of_kept ht2 (by decide)) 0b11, ?_⟩
  rw [BitVec.and_or_distrib_right, ht2]
  exact BitVec.or_zero

/-- The fields `Walk` reads from a level-2 block whose operands keep their duties (R113). -/
theorem l2BlockWord_fields {pa attr : Word64} (haligned : pa.toNat % 2 ^ 21 = 0)
    (hlt : pa.toNat < 2 ^ 48) (hattr : attr &&& 0x0000FFFFFFFFF003 = 0) :
    (pa ||| attr ||| 0b01).extractLsb' 0 2 = 0b01
      ∧ (pa ||| attr ||| 0b01) &&& Cfg.launch.oaMask.l2 = pa
      ∧ (pa ||| attr ||| 0b01) &&& Cfg.launch.attrMask = attr := by
  have hpa := blockAddress_clear haligned hlt
  refine ⟨extractLsb'_or_tag ?_ 0b01, ?_, ?_⟩
  · rw [BitVec.and_or_distrib_right, and_eq_zero_of_clear hpa (by decide),
      and_eq_zero_of_clear hattr (by decide)]
    exact BitVec.or_zero
  · rw [BitVec.and_or_distrib_right, BitVec.and_or_distrib_right,
      and_eq_self_of_clear hpa (by decide), and_eq_zero_of_clear hattr (by decide)]
    exact BitVec.or_zero.trans BitVec.or_zero
  · rw [BitVec.and_or_distrib_right, BitVec.and_or_distrib_right,
      and_eq_zero_of_clear hpa (by decide), and_eq_self_of_clear hattr (by decide)]
    exact BitVec.or_zero.trans BitVec.zero_or

/-- Settles O21: the link leads to the table's slot, and the slot's fields give the answer. -/
theorem walkReadsLinkedBlock : Obligations.WalkReadsLinkedBlock := by
  intro s va t2 pa attr htag hblock hoa hnext hattrMask hva ht2 hd1 haligned hlt hattr
  rw [hnext] at ht2
  obtain ⟨hlink, htable⟩ := linkWord_fields ht2
  rw [← extractLsb'_30_2_toNat hva] at hd1
  rw [← extractLsb'_21_9_toNat]
  have hnotBlock : (t2 ||| 0b11).extractLsb' 0 2 ≠ s.cfg.tagBlock.l1 := by
    rw [hlink, hblock]; decide
  have hslot {d : Word64} (hd2 : memRead s (slotAddr t2 (va.extractLsb' 21 9).toNat) = d) :
      memRead s (slotAddr ((t2 ||| 0b11) &&& s.cfg.nextMask) (va.extractLsb' 21 9).toNat) = d := by
    rw [hnext, htable, hd2]
  refine ⟨fun hd2 => ?_, fun hd2 => walk_of_l2_fault hd1 hnotBlock (hslot hd2) rfl⟩
  obtain ⟨hform, haddress, hattrs⟩ := l2BlockWord_fields haligned hlt hattr
  rw [walk_of_l2_block hd1 (getLsbD_zero_of_tag hlink) hnotBlock (hslot hd2)
    (getLsbD_zero_of_tag hform) (by rw [hform, hblock]; rfl)]
  have hoffset : (va.setWidth 21).setWidth 64 = BitVec.ofNat 64 (va.toNat % 2 ^ 21) := by
    rw [← BitVec.toNat_setWidth, BitVec.ofNat_toNat]
  rw [mappedBy, PerLevel.forLevel, hoa, hattrMask, haddress, hattrs, hoffset]

/-! ### What the table walker may see (`20_memory.md` R52, R57, R58) -/

@[simp] theorem memRead_beginOp (s : State) (a : Word64) : memRead s.beginOp a = memRead s a := rfl

/-- When a walker read has a next state, and which. -/
theorem walkerRead_eq_next {a : Word64} {within : Bool} {choice : Nat} {s t : State} :
    walkerRead a within choice s = .next t
      ↔ (a.toNat % 8 = 0 ∧ slotBacked s.cfg a = true)
        ∧ ∃ v, (visibleValues s (if within then s.opWindow else s.unsynced) a)[choice]? = some v
          ∧ t = { s with walkerSees := some v } := by
  unfold walkerRead
  by_cases hslot : a.toNat % 8 = 0 ∧ slotBacked s.cfg a = true
  · rw [if_pos hslot]
    cases (visibleValues s (if within then s.opWindow else s.unsynced) a)[choice]? <;>
      simp [hslot, eq_comm]
  · simp [hslot]

/-- With no store to the slot outstanding, its present value is the only visible one. -/
theorem visibleValues_of_no_store {s : State} {stores : List SlotStore} {a : Word64}
    (h : ∀ w ∈ stores, w.addr ≠ a) : visibleValues s stores a = [memRead s a] := by
  have hnone : stores.filter (fun w => w.addr == a) = [] := by simpa using h
  simp [visibleValues, hnone]

/-- A store adds the value it replaced to the visible ones. -/
theorem visibleValues_of_one_store {s : State} {stores : List SlotStore} {a old : Word64}
    (h : ∀ w ∈ stores, w.addr ≠ a) :
    visibleValues s (stores ++ [⟨a, old⟩]) a = [memRead s a, old] := by
  have hnone : stores.filter (fun w => w.addr == a) = [] := by simpa using h
  simp [visibleValues, hnone]

/-- When PD.WRITE has a next state, and which (`40_pd_encode.md` R114). -/
theorem exec_pdWrite_eq_next {a v : Word64} {s t : State} :
    exec (.pdWrite a v) s = .next t
      ↔ a.toNat % 8 = 0 ∧ slotBacked s.cfg a = true ∧ t = (s.storeSlot a v).respond .ok .none := by
  rw [show exec (.pdWrite a v) s = (memWrite a v s).answer from rfl]
  rcases memWrite_cases a v s with ⟨h1, h2, h⟩ | ⟨h1, h⟩ | ⟨h1, h2, h⟩ <;> rw [h]
  · simp [h1, h2, eq_comm]
  · simp [h1]
  · simp [h2]

/-- After a PD.WRITE to a slot with no store outstanding, the walker may see the new value and the old one,
now and inside the operation. -/
theorem visibleValues_after_pdWrite {s t : State} {a v : Word64}
    (hs : ∀ w ∈ s.unsynced, w.addr ≠ a) (h : exec (.pdWrite a v) s.beginOp = .next t)
    (within : Bool) :
    visibleValues t (if within then t.opWindow else t.unsynced) a = [v, memRead s a] := by
  obtain ⟨-, -, rfl⟩ := exec_pdWrite_eq_next.1 h
  have hrecorded := visibleValues_of_one_store (old := memRead s a)
    (s := (s.beginOp.storeSlot a v).respond .ok .none) hs
  rw [memRead_respond, memRead_storeSlot_same] at hrecorded
  cases within <;> exact hrecorded

/-- Settles O43: the two values the walker may see are the new and the old one. -/
theorem walkerReadsOldOrNewSlot : Obligations.WalkerReadsOldOrNewSlot := by
  intro a v s t hs h
  have hvisible := visibleValues_after_pdWrite hs h
  obtain ⟨haligned, hbacked, rfl⟩ := exec_pdWrite_eq_next.1 h
  refine ⟨fun within choice u hu => ?_, fun within x hx => ?_⟩
  · obtain ⟨-, x, hx, rfl⟩ := walkerRead_eq_next.1 hu
    rw [hvisible within] at hx
    simpa [eq_comm] using List.mem_of_getElem? hx
  · obtain ⟨choice, hchoice⟩ : ∃ choice, [v, memRead s a][choice]? = some x :=
      List.mem_iff_getElem?.1 (by simpa using hx)
    exact ⟨choice, walkerRead_eq_next.2
      ⟨⟨haligned, hbacked⟩, x, by rw [hvisible within, hchoice], rfl⟩⟩

/-! ### What a barrier makes visible (`20_memory.md` R58) -/

/-- With no store outstanding, the walker reads what `TM` holds. -/
theorem walkerSees_of_unsynced_nil {a : Word64} {choice : Nat} {t u : State}
    (ht : t.unsynced = []) (h : walkerRead a false choice t = .next u) :
    u.walkerSees = some (memRead t a) := by
  obtain ⟨-, x, hx, rfl⟩ := walkerRead_eq_next.1 h
  have hvisible : visibleValues t t.unsynced a = [memRead t a] :=
    visibleValues_of_no_store (by simp [ht])
  have hmem := List.mem_of_getElem? hx
  simpa [hvisible] using hmem

/-- A fill raises no error once its checks have passed. -/
theorem fillTable_ne_raised (base : Word64) (first : Nat) (ds : List Word64) (s : State) (e : Status)
    (t : State) : fillTable base first ds s ≠ .raised e t := by
  simp [fillTable, Progress.andThen_eq_raised, fillSlots_ne_raised]

theorem fillTable_unsynced {base : Word64} {first : Nat} {ds : List Word64} {s t : State}
    (h : fillTable base first ds s = .ok t) : t.unsynced = [] := by
  obtain ⟨u, -, rfl⟩ := fillTable_eq_ok.1 h
  rfl

/-- Where nothing after `CheckAlign` raises an error, the only error is its own, and nothing has changed. -/
theorem checkAlign_andThen_eq_raised {l : Level} {vals : List Word64} {s t : State} {e : Status}
    {k : State → Progress} (hk : ∀ u e t, k u ≠ .raised e t)
    (h : (checkAlign l vals s).andThen k = .raised e t) : e = .invalidArgument ∧ t = s := by
  rcases checkAlign_cases l vals s with ⟨-, h'⟩ | ⟨-, -, h'⟩ | ⟨-, -, h'⟩ <;> rw [h'] at h
  · exact absurd h (hk s e t)
  · cases h; exact ⟨rfl, rfl⟩
  · cases h

/-- The only error of PT.LINK's step is `InvalidArgument`, before any store (`60_exceptions.md` R240). -/
theorem linkStep_eq_raised {r : TableRecord} {va child : Word64} {s t : State} {e : Status}
    (h : linkStep r va child s = .raised e t) : e = .invalidArgument ∧ t = s := by
  unfold linkStep at h
  split at h
  · cases h; exact ⟨rfl, rfl⟩
  · refine checkAlign_andThen_eq_raised (fun u e t => ?_) h
    split
    · simp
    · exact fillTable_ne_raised _ _ _ _ _ _

/-- The only error of the step PT.MAP and PT.FAULT share is `InvalidArgument`, before any store
(`60_exceptions.md` R240). -/
theorem rangeStep_eq_raised {r : TableRecord} {va pa size : Word64} {descs : Level → Nat → List Word64}
    {s t : State} {e : Status} (h : rangeStep r va pa size descs s = .raised e t) :
    e = .invalidArgument ∧ t = s := by
  unfold rangeStep at h
  split at h
  · cases h; exact ⟨rfl, rfl⟩
  · refine checkAlign_andThen_eq_raised (fun u e t => ?_) h
    split
    · simp
    · exact fillTable_ne_raised _ _ _ _ _ _

/-- An operation whose only error is `InvalidArgument` answers `OK` only when it goes to its end. -/
theorem eq_ok_of_answeredOk {p : Progress} {s t : State}
    (hraised : ∀ e u, p = .raised e u → e = .invalidArgument ∧ u = s) (h : p.answer = .next t)
    (hok : answeredOk t = true) : ∃ u, p = .ok u ∧ t = u.respond .ok .none := by
  rcases Progress.answer_eq_next.1 h with hdone | ⟨e, u, hp, rfl⟩
  · exact hdone
  · obtain ⟨rfl, -⟩ := hraised e u hp
    simp [answeredOk] at hok

theorem linkStep_answer_unsynced {r : TableRecord} {va child : Word64} {s t : State}
    (h : (linkStep r va child s).answer = .next t) (hok : answeredOk t = true) :
    t.unsynced = [] := by
  obtain ⟨u, hu, rfl⟩ := eq_ok_of_answeredOk (fun _ _ => linkStep_eq_raised) h hok
  obtain ⟨l, -, -, -, hfill⟩ := linkStep_eq_ok.1 hu
  exact (u.respond_unsynced _ _).trans (fillTable_unsynced hfill)

theorem rangeStep_answer_unsynced {r : TableRecord} {va pa size : Word64}
    {descs : Level → Nat → List Word64} {s t : State}
    (h : (rangeStep r va pa size descs s).answer = .next t) (hok : answeredOk t = true) :
    t.unsynced = [] := by
  obtain ⟨u, hu, rfl⟩ := eq_ok_of_answeredOk (fun _ _ => rangeStep_eq_raised) h hok
  obtain ⟨l, -, -, -, hfill⟩ := rangeStep_eq_ok.1 hu
  exact (u.respond_unsynced _ _).trans (fillTable_unsynced hfill)

/-- Settles O44: each of these operations ends with no store outstanding. -/
theorem barrierMakesStoresVisible : Obligations.BarrierMakesStoresVisible := by
  intro s t u a choice hcause hread
  refine walkerSees_of_unsynced_nil ?_ hread
  rcases hcause with ⟨i, hexec, hok, hi⟩ | hbarrier
  · rcases hi with ⟨level, basePtr, baseVa, va, child, rfl⟩
      | ⟨level, basePtr, baseVa, va, pa, size, attr, rfl⟩
      | ⟨level, basePtr, baseVa, va, pa, size, rfl⟩ | rfl
    · exact linkStep_answer_unsynced hexec hok
    · exact rangeStep_answer_unsynced hexec hok
    · exact rangeStep_answer_unsynced hexec hok
    · cases hexec; rfl
  · cases hbarrier; rfl

end Sys2Proof.Machine

/-! The statements of `30_encoding.md`: what each reader of the decoder accepts, the round trip between
operations and requests (R81, R84), the response (R82), and how a step takes a request (R80, R85, R89). -/

namespace Sys2Proof

/-! ### Fields (`30_encoding.md` R81, R87)

Each reader accepts exactly the bits that the encoder writes, followed by anything. Said as an equivalence,
this is one lemma for both directions of the round trip. -/

/-- A field keeps the low bits of its number only. -/
theorem fieldBits_mod (w v : Nat) {k : Nat} (h : w ≤ k) :
    fieldBits w (v % 2 ^ k) = fieldBits w v := by
  induction w with
  | zero => rfl
  | succ w ih =>
    have hw : w < k := h
    simp [fieldBits, ih hw.le, Nat.testBit_mod_two_pow, hw]

theorem fieldBits_succ_add {w n : Nat} (b : Bool) (hn : n < 2 ^ w) :
    fieldBits (w + 1) (b.toNat * 2 ^ w + n) = b :: fieldBits w n := by
  have htail : fieldBits w (b.toNat * 2 ^ w + n) = fieldBits w n := by
    rw [← fieldBits_mod w _ le_rfl, Nat.mul_add_mod_self_right, Nat.mod_eq_of_lt hn]
  have hhead : (b.toNat * 2 ^ w + n).testBit w = b := by
    rw [Nat.mul_comm, Nat.testBit_two_pow_mul_add _ hn]
    cases b <;> simp
  rw [fieldBits, htail, hhead]

theorem takeNat_eq_some {w acc v : Nat} {bs rest : Bits} :
    takeNat w acc bs = some (v, rest)
      ↔ ∃ n < 2 ^ w, v = acc * 2 ^ w + n ∧ bs = fieldBits w n ++ rest := by
  induction w generalizing acc bs with
  | zero => simp [takeNat, fieldBits, eq_comm]
  | succ w ih =>
    cases bs with
    | nil => simp [takeNat, fieldBits]
    | cons b bs =>
      rw [takeNat, ih]
      constructor
      · rintro ⟨n, hn, rfl, rfl⟩
        have hlt : b.toNat * 2 ^ w + n < 2 ^ (w + 1) := by
          cases b <;> simp [Nat.pow_succ] <;> omega
        exact ⟨_, hlt, by ring, by rw [fieldBits_succ_add b hn, List.cons_append]⟩
      · rintro ⟨n, hn, rfl, hbs⟩
        rw [fieldBits, List.cons_append, List.cons_eq_cons] at hbs
        obtain ⟨rfl, rfl⟩ := hbs
        have hsplit : n = n % 2 ^ w + 2 ^ w * (n.testBit w).toNat := by
          rw [Nat.toNat_testBit, ← Nat.mod_pow_succ, Nat.mod_eq_of_lt hn]
        refine ⟨n % 2 ^ w, Nat.mod_lt _ (Nat.two_pow_pos w), ?_, by rw [fieldBits_mod w n le_rfl]⟩
        calc acc * 2 ^ (w + 1) + n
            = acc * 2 ^ (w + 1) + (n % 2 ^ w + 2 ^ w * (n.testBit w).toNat) := by rw [← hsplit]
          _ = (2 * acc + (n.testBit w).toNat) * 2 ^ w + n % 2 ^ w := by ring

theorem field_eq_some {w : Nat} {v : BitVec w} {bs rest : Bits} :
    field w bs = some (v, rest) ↔ bs = bitsOf v ++ rest := by
  simp only [field, Option.map_eq_some_iff, Prod.exists, Prod.mk.injEq, takeNat_eq_some, bitsOf]
  constructor
  · rintro ⟨_, _, ⟨n, hn, rfl, rfl⟩, rfl, rfl⟩
    simp [Nat.mod_eq_of_lt hn]
  · rintro rfl
    exact ⟨v.toNat, rest, ⟨v.toNat, v.isLt, by simp, rfl⟩, by simp⟩

theorem bytesBits_push {n : Nat} (v : Vector Byte n) (b : Byte) :
    bytesBits (v.push b).toList = bytesBits v.toList ++ bitsOf b := by
  simp [bytesBits, Vector.toList_push]

theorem readBytes_eq_some {n : Nat} {v : Vector Byte n} {bs rest : Bits} :
    readBytes n bs = some (v, rest) ↔ bs = bytesBits v.toList ++ rest := by
  induction n generalizing bs rest with
  | zero =>
    obtain rfl : v = #v[] := Vector.eq_empty
    simp [readBytes, bytesBits]
  | succ n ih =>
    simp only [readBytes, Option.bind_eq_bind, Option.bind_eq_some_iff, Prod.exists, ih,
      field_eq_some, Option.some.injEq, Prod.mk.injEq]
    constructor
    · rintro ⟨u, _, rfl, b, _, rfl, rfl, rfl⟩
      rw [bytesBits_push, List.append_assoc]
    · rintro rfl
      obtain ⟨u, b, rfl⟩ := v.exists_push
      exact ⟨u, _, by rw [bytesBits_push, List.append_assoc], b, _, rfl, rfl, rfl⟩

/-! ### Composite formats (`30_encoding.md` R90, R91, R96) -/

@[simp] theorem IdMode.ofCode_code (m : IdMode) : IdMode.ofCode m.code = m := by cases m <;> rfl

@[simp] theorem IdMode.code_ofCode (b : BitVec 1) : (IdMode.ofCode b).code = b := by
  revert b; decide

@[simp] theorem FrameType.ofCode_code (t : FrameType) : FrameType.ofCode t.code = t := by
  cases t <;> rfl

@[simp] theorem FrameType.code_ofCode (b : BitVec 1) : (FrameType.ofCode b).code = b := by
  revert b; decide

theorem readFrame_eq_some {f : Frame} {bs rest : Bits} :
    readFrame bs = some (f, rest) ↔ bs = f.bits ++ rest := by
  simp only [readFrame, Option.bind_eq_bind, Option.bind_eq_some_iff, Prod.exists, field_eq_some,
    readBytes_eq_some, Option.some.injEq, Prod.mk.injEq]
  constructor
  · rintro ⟨id, _, rfl, m, _, rfl, t, _, rfl, options, _, rfl, len, _, rfl, data, _, rfl, rfl, rfl⟩
    simp [Frame.bits]
  · rintro rfl
    exact ⟨f.id, _, by simp only [Frame.bits, List.append_assoc], f.idMode.code, _, rfl,
      f.type.code, _, rfl, f.options, _, rfl, f.len, _, rfl, f.data, _, rfl, by simp, rfl⟩

theorem readImage_eq_some {m : Image} {bs rest : Bits} :
    readImage bs = some (m, rest) ↔ bs = m.bits ++ rest := by
  simp only [readImage, Option.bind_eq_bind, Option.bind_eq_some_iff, Prod.exists, field_eq_some,
    readBytes_eq_some, Option.some.injEq, Prod.mk.injEq]
  constructor
  · rintro ⟨id, _, rfl, ptr, _, rfl, fdc, _, rfl, data, _, rfl, rfl, rfl⟩
    simp [Image.bits]
  · rintro rfl
    exact ⟨m.id, _, by simp only [Image.bits, List.append_assoc], m.ptr, _, rfl, m.fdc, _, rfl,
      m.data, _, rfl, rfl, rfl⟩

theorem readRegion_eq_some {r : Region} {bs rest : Bits} :
    readRegion bs = some (r, rest) ↔ bs = r.bits ++ rest := by
  simp only [readRegion, Option.bind_eq_bind, Option.bind_eq_some_iff, Prod.exists, field_eq_some,
    Option.some.injEq, Prod.mk.injEq]
  constructor
  · rintro ⟨va, _, rfl, pa, _, rfl, size, _, rfl, attr, _, rfl, rfl, rfl⟩
    simp [Region.bits]
  · rintro rfl
    exact ⟨r.virtualAddress, _, by simp only [Region.bits, List.append_assoc], r.physicalAddress, _,
      rfl, r.size, _, rfl, r.attr, _, rfl, rfl, rfl⟩

theorem readRegions_eq_some {n : Nat} {rs : List Region} {bs rest : Bits} :
    readRegions n bs = some (rs, rest)
      ↔ rs.length = n ∧ bs = rs.flatMap Region.bits ++ rest := by
  induction n generalizing rs bs rest with
  | zero =>
    simp only [readRegions, Option.some.injEq, Prod.mk.injEq, List.length_eq_zero_iff]
    constructor <;> rintro ⟨rfl, rfl⟩ <;> simp
  | succ n ih =>
    simp only [readRegions, Option.bind_eq_bind, Option.bind_eq_some_iff, Prod.exists, ih,
      readRegion_eq_some, Option.some.injEq, Prod.mk.injEq]
    constructor
    · rintro ⟨r, _, rfl, rs, _, ⟨rfl, rfl⟩, rfl, rfl⟩
      simp
    · rintro ⟨hlength, rfl⟩
      obtain ⟨r, rs, rfl⟩ := List.exists_cons_of_length_eq_add_one hlength
      exact ⟨r, _, by rw [List.flatMap_cons, List.append_assoc], rs, _,
        ⟨by simpa using hlength, rfl⟩, rfl, rfl⟩

/-! ### Reading back what was written -/

@[simp] theorem field_append {w : Nat} (v : BitVec w) (rest : Bits) :
    field w (bitsOf v ++ rest) = some (v, rest) := field_eq_some.2 rfl

@[simp] theorem readFrame_append (f : Frame) (rest : Bits) :
    readFrame (f.bits ++ rest) = some (f, rest) := readFrame_eq_some.2 rfl

@[simp] theorem readImage_append (m : Image) (rest : Bits) :
    readImage (m.bits ++ rest) = some (m, rest) := readImage_eq_some.2 rfl

/-- Only format L asks that the operation be well-formed: `count` says how many records follow. -/
theorem readOperands_append {i : Instr} (hi : i.wf = true) (rest : Bits) :
    readOperands i.opcode.toNat (i.operandBits ++ rest) = some (i, rest) := by
  cases i with
  | ptBuild count regions =>
    have hlength : regions.length = count.toNat := by simpa [Instr.wf] using hi
    have hregions : readRegions count.toNat (regions.flatMap Region.bits ++ rest)
        = some (regions, rest) := readRegions_eq_some.2 ⟨hlength, rfl⟩
    simp [readOperands, Instr.opcode, Instr.operandBits, hregions]
  | _ => simp [readOperands, Instr.opcode, Instr.operandBits]

/-! ### Requests (`30_encoding.md` R81, R84, R85) -/

/-- Row by row of the operation map: the laws of the readers say which fields have been read. -/
theorem readOperands_eq_some {op : Nat} {i : Instr} {bs rest : Bits} :
    readOperands op bs = some (i, rest)
      ↔ op = i.opcode.toNat ∧ i.wf = true ∧ bs = i.operandBits ++ rest := by
  constructor
  · unfold readOperands
    split
    all_goals
      simp only [Option.bind_eq_bind, Option.bind_eq_some_iff, Prod.exists, field_eq_some,
        readFrame_eq_some, readImage_eq_some, readRegions_eq_some, Option.some.injEq,
        Prod.mk.injEq, ↓existsAndEq, and_true, true_and, reduceCtorEq, false_imp_iff,
        forall_exists_index, and_imp]
    case h_9 => -- PT.BUILD
      rintro count regions rfl hlength rfl
      exact ⟨rfl, by simp [Instr.wf, hlength], by simp [Instr.operandBits]⟩
    all_goals
      intros
      subst_vars
      exact ⟨rfl, rfl, by simp [Instr.operandBits]⟩
  · rintro ⟨rfl, hi, rfl⟩
    exact readOperands_append hi rest

theorem opcode_mem_opcodes (i : Instr) : i.opcode.toNat ∈ opcodes := by
  cases i <;> simp [Instr.opcode, opcodes]

/-- Exactly the requests of the well-formed operations decode to an operation. -/
theorem decode_eq_ok {bits : Bits} {i : Instr} :
    decode bits = .ok i ↔ i.wf = true ∧ bits = encode i := by
  constructor
  · intro h
    unfold decode at h
    split at h
    · cases h
    · next op rest hop =>
      split at h
      · cases h
      · split at h
        · next j hoperands =>
          cases h
          obtain ⟨hcode, hi, rfl⟩ := readOperands_eq_some.1 hoperands
          obtain rfl : op = i.opcode := BitVec.eq_of_toNat_eq hcode
          refine ⟨hi, ?_⟩
          rw [field_eq_some.1 hop, encode, List.append_nil]
        · cases h
  · rintro ⟨hi, rfl⟩
    have hoperands : readOperands i.opcode.toNat i.operandBits = some (i, []) :=
      readOperands_eq_some.2 ⟨rfl, hi, (List.append_nil _).symm⟩
    simp [decode, encode, opcode_mem_opcodes, hoperands]

theorem reserved_opcodes_length :
    ((List.range 256).filter fun op => !opcodes.contains op).length = 235 := by decide +kernel

theorem decode_reserved {op : Byte} (hop : op.toNat ∉ opcodes) (tail : Bits) :
    decode (fieldBits 8 op.toNat ++ tail) = .error (.reserved op) := by
  have hfield : field 8 (fieldBits 8 op.toNat ++ tail) = some (op, tail) := field_append op tail
  simp [decode, hfield, hop]

/-! ### The fields as the statements write them -/

theorem frame_bits_eq (f : Frame) : f.bits = Claims.frameFields f := by
  obtain ⟨id, idMode, type, options, len, data⟩ := f
  cases idMode <;> cases type <;> rfl

theorem image_bits_eq (m : Image) : m.bits = Claims.imageFields m := rfl

theorem region_bits_eq : Region.bits = Claims.regionFields := rfl

end Sys2Proof

namespace Sys2Proof.Machine

open Sys2Proof.Claims

/-! ### The round trip -/

/-- Settles O56: one direction of `decode_eq_ok`. -/
theorem decodeOfEncode : Obligations.DecodeOfEncode := fun _ hi => decode_eq_ok.2 ⟨hi, rfl⟩

/-- Settles O58: the other direction of `decode_eq_ok`. -/
theorem encodeOfDecode : Obligations.EncodeOfDecode := fun _ _ h =>
  have ⟨hi, hbits⟩ := decode_eq_ok.1 h
  ⟨hi, hbits.symm⟩

/-- Settles O57: each encoding is the select code and the fields by definition, once the composite formats
are written field by field. -/
theorem encodingFollowsFormats : Obligations.EncodingFollowsFormats := by
  unfold Obligations.EncodingFollowsFormats
  simp only [← frame_bits_eq, ← image_bits_eq, ← region_bits_eq]
  exact ⟨⟨rfl, rfl, rfl⟩, fun _ => ⟨rfl, rfl, rfl⟩, fun _ _ _ => rfl, fun _ _ => rfl,
    fun _ _ _ _ _ => rfl, fun _ _ _ _ _ _ _ => ⟨rfl, rfl⟩, fun _ _ => rfl, fun _ => ⟨rfl, rfl⟩,
    fun _ => ⟨rfl, rfl⟩, fun _ => rfl, fun _ _ _ => ⟨rfl, rfl, rfl, rfl⟩⟩

/-- Settles O59: the four words are the encodings of their operations. -/
theorem programWordsDecode : Obligations.ProgramWordsDecode :=
  ⟨decode_eq_ok.2 ⟨rfl, by decide⟩, decode_eq_ok.2 ⟨rfl, by decide⟩,
    decode_eq_ok.2 ⟨rfl, by decide⟩, decode_eq_ok.2 ⟨rfl, by decide⟩⟩

/-! ### Responses (`30_encoding.md` R82) -/

theorem statusCode_toNat (e : Status) : (statusCode e).toNat = kindCode e := by cases e <;> rfl

theorem resultBits_eq (r : Result) : resultBits r = resultFields r := by
  cases r with
  | image img => exact image_bits_eq img
  | frame f => exact frame_bits_eq f
  | _ => rfl

theorem responseBits_eq (r : Response) :
    responseBits r = fieldBits 8 (kindCode r.status) ++ resultFields r.result := by
  rw [responseBits, bitsOf, statusCode_toNat, resultBits_eq]

theorem resultBits_length (r : Result) : (resultBits r).length = shapeWidth r.shape := by
  cases r <;> simp [resultBits, Result.shape, shapeWidth]

theorem responseBits_length (r : Response) :
    (responseBits r).length = 8 + shapeWidth r.result.shape := by
  simp [responseBits, resultBits_length]

@[simp] theorem freeResult_shape (draw : Nat) (shape : ResultShape) :
    (freeResult draw shape).shape = shape := by cases shape <;> rfl

/-- An operation counts its response and no other. -/
theorem Effect.draws_alone {i : Instr} {s u : State} (hu : Effect i s u) : u.draws = s.draws := by
  cases hu with
  | tables _ hw => obtain ⟨_, _, _, rfl⟩ := hw.frame; rfl
  | _ => rfl

/-- Every next state of `o` holds a response with the result fields of `shape`. -/
def AnswersShape (shape : ResultShape) (o : Host.Outcome State Fault Refusal) : Prop :=
  ∀ t, o = .next t → ∃ r, t.rsp = some r ∧ r.result.shape = shape

section Shapes

variable (shape : ResultShape) (s : State)

@[simp] theorem answersShape_respond (e : Status) (r : Result) :
    AnswersShape shape (.next (s.respond e r)) ↔ r.shape = shape := by
  simp [AnswersShape]

@[simp] theorem answersShape_raise (e : Status) : AnswersShape shape (.next (s.raise e shape)) := by
  simp [AnswersShape]

@[simp] theorem answersShape_fault (f : Fault) : AnswersShape shape (.fault f) := by
  simp [AnswersShape]

@[simp] theorem answersShape_refused (r : Refusal) : AnswersShape shape (.refused r) := by
  simp [AnswersShape]

theorem Progress.answer_answersShape (p : Progress) : AnswersShape .none p.answer := by
  cases p <;> simp [Result.shape]

theorem execPdBlock_answersShape (level : Byte) (addr attr : Word64) :
    AnswersShape .desc (execPdBlock level addr attr s) := by
  unfold execPdBlock
  split <;> simp [Result.shape]

theorem execDlcB2c_answersShape (n : Byte) : AnswersShape .code (execDlcB2c n s) := by
  unfold execDlcB2c
  split <;> simp [Result.shape]

theorem execDlcC2b_answersShape (n : Byte) : AnswersShape .bytes (execDlcC2b n s) := by
  unfold execDlcC2b
  split <;> simp [Result.shape]

theorem execFrmCheck_answersShape (frame : Frame) : AnswersShape .none (execFrmCheck frame s) := by
  unfold execFrmCheck
  split <;> simp [Result.shape]

theorem answerIndex_answersShape (channel : Byte) (found : Option (BufferClass × Nat)) :
    AnswersShape .index (answerIndex channel found s) := by
  unfold answerIndex
  split
  · simp
  · split <;> simp [indexResult, Result.shape]

theorem execFrmEnc_answersShape (frame : Frame) : AnswersShape .image (execFrmEnc frame s) := by
  unfold execFrmEnc
  split
  · split <;> simp [Result.shape]
  · simp

theorem answerFrame_answersShape (img : Image) : AnswersShape .frame (answerFrame img s) := by
  simp [answerFrame, Result.shape]

theorem readMb_answersShape (h : Nat) : AnswersShape .frame (readMb h s) := by
  unfold readMb
  split
  · simp
  · split
    · exact answerFrame_answersShape _ _
    · simp

theorem readRxFifo_answersShape (h : Nat) : AnswersShape .frame (readRxFifo h s) := by
  unfold readRxFifo
  split
  · simp
  · simp
  · exact answerFrame_answersShape _ _

theorem readCFifo_answersShape (h : Nat) : AnswersShape .frame (readCFifo h s) := by
  unfold readCFifo
  split
  · simp
  · simp
  · exact answerFrame_answersShape _ _

theorem execCanRead_answersShape (channel : Byte) (index : Word32) :
    AnswersShape .frame (execCanRead channel index s) := by
  unfold execCanRead
  split
  · simp
  · split
    · simp
    · exact readMb_answersShape s _
    · exact readRxFifo_answersShape s _
    · exact readCFifo_answersShape s _

theorem exec_answersShape (i : Instr) : AnswersShape (resultShape i) (exec i s) := by
  cases i with
  | pdFault => exact (answersShape_respond _ s _ _).2 rfl
  | pdLink addr => exact (answersShape_respond _ s _ _).2 rfl
  | pdBlock level addr attr => exact execPdBlock_answersShape s level addr attr
  | pdWrite a v => exact (memWrite a v s).answer_answersShape
  | ptAlloc => exact answersShape_raise _ s _
  | ptLink level basePtr baseVa va child => exact (linkStep _ va child s).answer_answersShape
  | ptMap level basePtr baseVa va pa size attr =>
    exact (mapStep _ va pa size attr s).answer_answersShape
  | ptFault level basePtr baseVa va pa size => exact (faultStep _ va pa size s).answer_answersShape
  | ptBuild count regions => exact (buildStep _ regions s).answer_answersShape
  | ptActivate => exact (answersShape_respond _ _ _ _).2 rfl
  | atV2p addr => exact (answersShape_respond _ s _ _).2 rfl
  | atP2v addr => exact (answersShape_respond _ s _ _).2 rfl
  | dlcB2c n => exact execDlcB2c_answersShape s n
  | dlcC2b n => exact execDlcC2b_answersShape s n
  | frmCheck frame => exact execFrmCheck_answersShape s frame
  | idxClassW channel index => exact answerIndex_answersShape s channel _
  | idxClassR channel index => exact answerIndex_answersShape s channel _
  | frmEnc frame => exact execFrmEnc_answersShape s frame
  | frmDec img => exact (answersShape_respond _ s _ _).2 rfl
  | canWrite channel index frame => exact (writeStep channel index frame s).answer_answersShape
  | canRead channel index => exact execCanRead_answersShape s channel index

end Shapes

/-- Settles O45: the operation fixes the result fields, and these fix the bits. -/
theorem responseHasItsResultFields : Obligations.ResponseHasItsResultFields := by
  intro i s t h
  obtain ⟨r, hrsp, hshape⟩ := exec_answersShape s i t h
  have hdraws : t.draws = s.draws + 1 := by
    obtain ⟨u, e, _, hu, rfl⟩ := exec_answers i s t h
    rw [State.respond_draws, hu.draws_alone]
  have hlength : (responseBits r).length = 8 + shapeWidth (resultShape i) := by
    rw [responseBits_length, hshape]
  exact ⟨hdraws, r, hrsp, hshape, responseBits_eq r, hlength⟩

/-! ### Taking a request (`30_encoding.md` R80, R85, R89) -/

theorem step_of_inputs_nil {s : State} (h : s.inputs = []) : step s = .next s := by
  rw [step, advance, h]

theorem step_of_inputs_cons {s : State} {input : Input} {rest : List Input}
    (h : s.inputs = input :: rest) : step s = takeInput input { s with inputs := rest } := by
  rw [step, advance, h]

theorem runRequest_of_ok {bits : Bits} {i : Instr} (h : decode bits = .ok i) (s : State) :
    runRequest bits s = exec i s.beginOp := by
  rw [runRequest, h]

theorem runRequest_of_reserved {bits : Bits} {op : Byte} (h : decode bits = .error (.reserved op))
    (s : State) : runRequest bits s = .next (s.beginOp.raise .unsupported .none) := by
  rw [runRequest, h]

theorem runRequest_of_malformed {bits : Bits}
    (h : decode bits = .error .tooShort ∨ ∃ op, decode bits = .error (.wrongLength op))
    (s : State) : runRequest bits s = .refused .malformedRequest := by
  rcases h with h | ⟨op, h⟩ <;> rw [runRequest, h]

/-- Settles O54, clause by clause from what a step and a request can do. -/
theorem stepRunsDecodedOperation : Obligations.StepRunsDecodedOperation := by
  refine ⟨fun s bits rest i hs hdecode _ => ?_, fun s input rest => step_of_inputs_cons,
    fun s => rfl, fun s bits h => runRequest_of_malformed h s, fun s => step_of_inputs_nil⟩
  rw [step_of_inputs_cons hs, takeInput, runRequest_of_ok hdecode, State.beginOp]

/-- Settles O55: whatever follows a reserved code, the decoder stops at the code. -/
theorem reservedOperationAnswersUnsupported : Obligations.ReservedOperationAnswersUnsupported := by
  refine ⟨reserved_opcodes_length, fun op tail s rest hop hs => ?_⟩
  rw [step_of_inputs_cons hs, takeInput, runRequest_of_reserved (decode_reserved hop tail)]
  rfl

theorem execMmuOpen_of_build {regions : List Region} {s t : State}
    (hlength : regions.length < 2 ^ 16)
    (hbuild : execPtBuild (BitVec.ofNat 16 regions.length) regions s = .next t) :
    execMmuOpen regions s = if answeredOk t then execPtActivate t else .next t := by
  rw [execMmuOpen, if_pos hlength, hbuild]

/-- Settles O19. -/
theorem mmuOpenIsBuildThenActivate : Obligations.MmuOpenIsBuildThenActivate :=
  fun _ _ _ => execMmuOpen_of_build

end Sys2Proof.Machine

/-! The statements of `40_pd_encode.md`: what the three descriptor producers answer (R111 to R113), what
PD.WRITE stores (R114), how the forms are told apart (R115), and where the read-back of R116 fails. -/

namespace Sys2Proof.Machine

open Sys2Proof.Claims

/-! ### Answers and errors -/

/-- A raised error is the failure the statements speak of: the kind, free result fields, nothing else. -/
theorem failsWith_of_raise {i : Instr} {s : State} {e : Status} {shape : ResultShape}
    (h : exec i s = .next (s.raise e shape)) : FailsWith i s e shape :=
  ⟨freeResult s.draws shape, freeResult_shape _ _, h⟩

/-- Two responses given in the same state are equal only if their result fields are. -/
theorem result_eq_of_answered_eq {s : State} {e e' : Status} {r r' : Result}
    (h : answered s e r = answered s e' r') : r = r' := by
  have hrsp : some (Response.mk e r) = some (Response.mk e' r') := congrArg State.rsp h
  cases hrsp
  rfl

/-! ### Levels (`40_pd_encode.md` R113) -/

theorem levelNumber_pos (l : Level) : 0 < levelNumber l := by cases l <;> decide

/-- A level of 0 or above the bound names no level. -/
theorem levelUpTo_eq_none {hi : Nat} {level : Byte} (h : level.toNat = 0 ∨ hi < level.toNat) :
    levelUpTo hi level = none := by
  cases hlevel : levelUpTo hi level with
  | none => rfl
  | some l =>
    obtain ⟨hle, hnumber⟩ := levelUpTo_eq_some.1 hlevel
    have hpos := levelNumber_pos l
    omega

/-! ### Descriptors and their tags (`40_pd_encode.md` R112, R113, R115) -/

/-- R7's nonzero tags, said for every level at once. -/
theorem tagsWf_iff {c : Cfg} :
    c.tagsWf = true ↔ c.tagTable ≠ 0 ∧ ∀ l, c.tagBlock.forLevel l ≠ 0 := by
  simp only [Cfg.tagsWf, Bool.and_eq_true, bne_iff_ne]
  constructor
  · rintro ⟨⟨⟨htable, h1⟩, h2⟩, h3⟩
    refine ⟨htable, fun l => ?_⟩
    cases l with
    | l1 => exact h1
    | l2 => exact h2
    | l3 => exact h3
  · rintro ⟨htable, hblock⟩
    exact ⟨⟨⟨htable, hblock .l1⟩, hblock .l2⟩, hblock .l3⟩

/-- Bits 1:0 of a word with a tag ORed in. -/
theorem extractLsb'_or_setWidth (x : Word64) (tag : BitVec 2) :
    (x ||| tag.setWidth 64).extractLsb' 0 2 = x.extractLsb' 0 2 ||| tag := by
  rw [BitVec.extractLsb'_or, BitVec.extractLsb'_setWidth_of_le (by omega), BitVec.extractLsb'_eq_self]

theorem extractLsb'_linkDesc (c : Cfg) (a : Word64) :
    (linkDesc c a).extractLsb' 0 2 = a.extractLsb' 0 2 ||| c.tagTable :=
  extractLsb'_or_setWidth a _

theorem extractLsb'_blockDesc (c : Cfg) (l : Level) (a t : Word64) :
    (blockDesc c l a t).extractLsb' 0 2
      = a.extractLsb' 0 2 ||| t.extractLsb' 0 2 ||| c.tagBlock.forLevel l := by
  rw [blockDesc, extractLsb'_or_setWidth, BitVec.extractLsb'_or]

/-- A word whose bits 1:0 hold a nonzero tag is not 0. -/
theorem ne_zero_of_tag {d : Word64} {x tag : BitVec 2} (hd : d.extractLsb' 0 2 = x ||| tag)
    (htag : tag ≠ 0) : d ≠ 0 := by
  rintro rfl
  exact htag (BitVec.or_eq_zero_iff.1 hd.symm).2

/-! ### The four operations (`40_pd_encode.md` R111 to R114) -/

theorem exec_pdFault (s : State) : exec .pdFault s = .next (answered s .ok (.desc 0)) := rfl

theorem exec_pdLink (addr : Word64) (s : State) :
    exec (.pdLink addr) s = .next (answered s .ok (.desc (linkDesc s.cfg addr))) := rfl

/-- PD.BLOCK on a level up to `MAX_LEVEL`. -/
theorem exec_pdBlock_of_level {level : Byte} {l : Level} {s : State}
    (hlevel : level.toNat = levelNumber l) (hle : levelNumber l ≤ s.cfg.maxLevel.val)
    (addr attr : Word64) :
    exec (.pdBlock level addr attr) s
      = .next (answered s .ok (.desc (blockDesc s.cfg l addr attr))) := by
  have hfound : levelUpTo s.cfg.maxLevel.val level = some l :=
    levelUpTo_eq_some.2 ⟨hlevel ▸ hle, hlevel⟩
  change execPdBlock level addr attr s = _
  rw [execPdBlock, hfound]
  rfl

/-- PD.BLOCK on any other level. -/
theorem exec_pdBlock_of_no_level {level : Byte} {s : State}
    (h : level.toNat = 0 ∨ s.cfg.maxLevel.val < level.toNat) (addr attr : Word64) :
    exec (.pdBlock level addr attr) s = .next (s.raise .invalidArgument .desc) := by
  change execPdBlock level addr attr s = _
  rw [execPdBlock, levelUpTo_eq_none h]

/-- PD.WRITE to a misaligned address. -/
theorem exec_pdWrite_of_misaligned {a : Word64} (h : a.toNat % 8 ≠ 0) (v : Word64) (s : State) :
    exec (.pdWrite a v) s = .refused .misalignedSlot := by
  change (memWrite a v s).answer = _
  rw [memWrite, if_pos h, Progress.answer_refused]

/-! ### The statements of `40_pd_encode.md` -/

/-- Settles O4: a misaligned address is refused, and any other backed store is one `State.storeSlot`. -/
theorem pdWriteReplacesOneSlot : Obligations.PdWriteReplacesOneSlot := by
  intro a v s
  refine ⟨rfl, fun hmisaligned => exec_pdWrite_of_misaligned hmisaligned v s,
    fun haligned hbacked => ?_⟩
  exact ⟨(s.storeSlot a v).respond .ok .none, exec_pdWrite_eq_next.2 ⟨haligned, hbacked, rfl⟩,
    memRead_storeSlot_same s a v, Memory.byte_setSlot_inside s.tm a.toNat v,
    fun x => Memory.byte_setSlot_other s.tm a.toNat x v, rfl⟩

/-- Settles O8: a nonzero tag keeps a descriptor from being 0, and operands clear in bits 1:0 leave the
tag there alone. -/
theorem descriptorFormsAreDistinct : Obligations.DescriptorFormsAreDistinct := by
  intro s htags
  obtain ⟨htable, hblock⟩ := tagsWf_iff.1 htags
  refine ⟨exec_pdFault s, fun addr => ?_, fun level l addr attr hlevel hle => ?_,
    fun level l child addr attr hlevel hle hne hchild haddr hattr => ?_⟩
  · exact ⟨_, exec_pdLink addr s, ne_zero_of_tag (extractLsb'_linkDesc _ _) htable⟩
  · exact ⟨_, exec_pdBlock_of_level hlevel hle addr attr,
      ne_zero_of_tag (extractLsb'_blockDesc _ _ _ _) (hblock l)⟩
  · refine ⟨_, _, exec_pdLink child s, exec_pdBlock_of_level hlevel hle addr attr, ?_⟩
    rw [extractLsb'_linkDesc, extractLsb'_blockDesc, hchild, haddr, hattr]
    simpa using hne

/-- Settles O1. -/
theorem pdFaultAnswersZero : Obligations.PdFaultAnswersZero := ⟨rfl, exec_pdFault⟩

/-- Settles O2. -/
theorem pdLinkOrsTableTag : Obligations.PdLinkOrsTableTag :=
  fun addr s => ⟨rfl, exec_pdLink addr s⟩

/-- Settles O3, by whether the operand names a level up to `MAX_LEVEL`. -/
theorem pdBlockOrsAddressAttributeAndTag : Obligations.PdBlockOrsAddressAttributeAndTag :=
  fun _ addr attr _ => ⟨rfl, fun _ hlevel hle => exec_pdBlock_of_level hlevel hle addr attr,
    fun h => failsWith_of_raise (exec_pdBlock_of_no_level h addr attr)⟩

/-- PD.BLOCK of level 2, address 0 and attribute 0x1000 at launch: bit 12 stands in the descriptor. -/
theorem exec_pdBlock_attribute_bit_twelve :
    exec (.pdBlock 2 0 0x1000) State.reset = .next (answered State.reset .ok (.desc 0x1001)) :=
  exec_pdBlock_of_level (l := .l2) rfl (by decide) 0 0x1000

/-- Refutes O7: attribute bit 12 at level 2 keeps R116's duty, and `ATTR_MASK` drops it (log 31). -/
theorem not_blockDescriptorReadsBackAsWritten : ¬ Obligations.BlockDescriptorReadsBackAsWritten := by
  intro h
  have hduty : (0x1000 : Word64) &&& (State.reset.cfg.oaMask.forLevel .l2 ||| 0x3) = 0 := by decide
  obtain ⟨d, hexec, -, hattr, -⟩ :=
    h 2 .l2 0 0x1000 State.reset rfl (by decide) rfl rfl (by decide) (by decide) hduty
  rw [exec_pdBlock_attribute_bit_twelve] at hexec
  have hd : Result.desc 0x1001 = .desc d :=
    result_eq_of_answered_eq (Host.Outcome.next.inj hexec)
  rw [← Result.desc.inj hd] at hattr
  have hdropped : (0x1001 : Word64) &&& 0xFFFF000000000FFC ≠ 0x1000 := by decide
  exact hdropped hattr

end Sys2Proof.Machine

/-! The statements of `41_pt_fill.md`: the checks of a fill in their order (R130, R134, R135), the stores
it makes (R133, R136, R138), the segment a region goes to (R139), PT.BUILD (R140 to R143), and the
operations that store nothing (R131, R146, R148, R149). -/

namespace Sys2Proof.Machine

open Sys2Proof.Claims

/-! ### Operations that make no store -/

/-- Settles O9. -/
theorem ptAllocAnswersUnsupported : Obligations.PtAllocAnswersUnsupported := ⟨rfl, fun _ => rfl⟩

/-- Settles O18. -/
theorem ptActivateWritesCpuRegisters : Obligations.PtActivateWritesCpuRegisters :=
  ⟨rfl, fun _ => rfl⟩

/-- Settles O20. -/
theorem addressTranslationIsIdentity : Obligations.AddressTranslationIsIdentity :=
  fun _ _ => ⟨rfl, rfl, rfl, rfl⟩

/-! ### Selecting a segment (`41_pt_fill.md` R139) -/

/-- No segment is selected exactly when every base lies above the address. -/
theorem selectSegment_eq_none {va : Word64} {segs : List Segment} :
    selectSegment va segs = none ↔ ∀ g ∈ segs, va.toNat < g.baseVa.toNat := by
  induction segs with
  | nil => simp [selectSegment]
  | cons g gs ih =>
    rw [List.forall_mem_cons, ← ih, selectSegment]
    cases selectSegment va gs with
    | none => simp
    | some b =>
      by_cases hbetter : g.baseVa.toNat ≤ va.toNat ∧ b.baseVa.toNat < g.baseVa.toNat <;>
        simp [hbetter]

/-- The selected segment is a configured one, and no configured base lies between its base and the
address. -/
theorem selectSegment_spec {va : Word64} {segs : List Segment} {g : Segment}
    (h : selectSegment va segs = some g) :
    g ∈ segs ∧ g.baseVa.toNat ≤ va.toNat
      ∧ ∀ g' ∈ segs, g'.baseVa.toNat ≤ va.toNat → g'.baseVa.toNat ≤ g.baseVa.toNat := by
  induction segs generalizing g with
  | nil => cases h
  | cons g₀ gs ih =>
    simp only [selectSegment] at h
    cases hgs : selectSegment va gs with
    | none =>
      have habove := selectSegment_eq_none.1 hgs
      simp only [hgs, Option.ite_none_right_eq_some, Option.some.injEq] at h
      obtain ⟨hle, rfl⟩ := h
      refine ⟨by simp, hle, fun g' hg' hle' => ?_⟩
      rcases List.mem_cons.1 hg' with rfl | hmem
      · exact le_rfl
      · exact absurd hle' (Nat.not_le.2 (habove g' hmem))
    | some b =>
      obtain ⟨hb, hle, hgreatest⟩ := ih hgs
      simp only [hgs] at h
      split at h
      · next hbetter =>
        cases h
        refine ⟨by simp, hbetter.1, fun g' hg' hle' => ?_⟩
        rcases List.mem_cons.1 hg' with rfl | hmem
        · exact le_rfl
        · exact (hgreatest g' hmem hle').trans hbetter.2.le
      · next hworse =>
        cases h
        refine ⟨by simp [hb], hle, fun g' hg' hle' => ?_⟩
        rcases List.mem_cons.1 hg' with rfl | hmem
        · exact Nat.le_of_not_lt fun hlt => hworse ⟨hle', hlt⟩
        · exact hgreatest g' hmem hle'

/-- Settles O14: of two segments with the greatest base at or below the address, distinct bases leave
one. -/
theorem segmentSelectionIsGreatestBase : Obligations.SegmentSelectionIsGreatestBase := by
  intro va segs hdistinct
  refine ⟨fun g => ⟨selectSegment_spec, fun ⟨hg, hle, hgreatest⟩ => ?_⟩, selectSegment_eq_none⟩
  cases hselected : selectSegment va segs with
  | none => exact absurd hle (Nat.not_le.2 (selectSegment_eq_none.1 hselected g hg))
  | some b =>
    obtain ⟨hb, hble, hbgreatest⟩ := selectSegment_spec hselected
    have hbase : b.baseVa = g.baseVa :=
      BitVec.eq_of_toNat_eq ((hgreatest b hb hble).antisymm (hbgreatest g hg hle))
    rw [List.inj_on_of_nodup_map hdistinct hb hg hbase]

/-! ### The checks of a fill, in their order (`41_pt_fill.md` R130, R134, R135) -/

/-- A level of 0 or above the bound, or an address below the base, fails `CheckTable`. -/
theorem checkTable_eq_none {hi : Nat} {r : TableRecord} {va : Word64}
    (h : r.level.toNat = 0 ∨ hi < r.level.toNat ∨ va.toNat < r.baseVa.toNat) :
    checkTable hi r va = none := by
  cases hc : checkTable hi r va with
  | none => rfl
  | some l =>
    obtain ⟨⟨hle, hnumber⟩, hbase⟩ := checkTable_eq_some.1 hc
    have hpos := levelNumber_pos l
    omega

theorem allAligned_eq_true {l : Level} {vals : List Word64} :
    allAligned l vals = true ↔ ∀ v ∈ vals, v.toNat % strideOf l = 0 := by
  simp [allAligned]

theorem checkAlign_of_aligned {l : Level} {vals : List Word64} (h : allAligned l vals = true)
    (s : State) : checkAlign l vals s = .ok s := by
  rw [checkAlign, if_pos h]

theorem checkAlign_of_misaligned {l : Level} {vals : List Word64} (h : allAligned l vals = false)
    (s : State) :
    checkAlign l vals s = if s.cfg.paramCheck then .raised .invalidArgument s
      else .refused .misalignedWithoutCheck := by
  simp [checkAlign, h]

/-- How a failed alignment check is answered, whatever the operation would have done next. -/
theorem checkAlign_andThen_answer {l : Level} {vals : List Word64} (h : allAligned l vals = false)
    (s : State) (k : State → Progress) :
    ((checkAlign l vals s).andThen k).answer
      = if s.cfg.paramCheck then .next (answered s .invalidArgument .none)
        else .refused .misalignedWithoutCheck := by
  rw [checkAlign_of_misaligned h]
  cases s.cfg.paramCheck <;> rfl

section Steps

variable {r : TableRecord} {va pa size child : Word64} {descs : Level → Nat → List Word64}
  {s : State} {l : Level}

theorem linkStep_of_no_table (h : checkTable (s.cfg.maxLevel.val - 1) r va = none) :
    linkStep r va child s = .raised .invalidArgument s := by
  rw [linkStep, h]

theorem linkStep_of_table (h : checkTable (s.cfg.maxLevel.val - 1) r va = some l) :
    linkStep r va child s = (checkAlign l [va] s).andThen fun s =>
      if entriesOf s.cfg l ≤ slotOf l r.baseVa va then .refused .slotOutOfTable
      else fillTable r.basePtr (slotOf l r.baseVa va) [linkDesc s.cfg child] s := by
  rw [linkStep, h]

theorem rangeStep_of_no_table (h : checkTable s.cfg.maxLevel.val r va = none) :
    rangeStep r va pa size descs s = .raised .invalidArgument s := by
  rw [rangeStep, h]

theorem rangeStep_of_table (h : checkTable s.cfg.maxLevel.val r va = some l) :
    rangeStep r va pa size descs s = (checkAlign l [va, pa, size] s).andThen fun s =>
      if entriesOf s.cfg l < slotOf l r.baseVa va + slotCount l size then .refused .slotOutOfTable
      else fillTable r.basePtr (slotOf l r.baseVa va) (descs l (slotCount l size)) s := by
  rw [rangeStep, h]

end Steps

/-! ### Storing to many slots -/

/-- The stores `(address, value)` of `ws`, made in the order of the list. -/
def Memory.setSlots (m : Memory) (ws : List (Word64 × Word64)) : Memory :=
  ws.foldl (fun m w => m.setSlot w.1.toNat w.2) m

@[simp] theorem Memory.setSlots_nil (m : Memory) : m.setSlots [] = m := rfl

@[simp] theorem Memory.setSlots_cons (m : Memory) (w : Word64 × Word64)
    (ws : List (Word64 × Word64)) : m.setSlots (w :: ws) = (m.setSlot w.1.toNat w.2).setSlots ws :=
  rfl

theorem Memory.setSlots_append (m : Memory) (ws ws' : List (Word64 × Word64)) :
    m.setSlots (ws ++ ws') = (m.setSlots ws).setSlots ws' := List.foldl_append

/-- A byte that no store covers keeps its value. -/
theorem Memory.byte_setSlots_other {m : Memory} {ws : List (Word64 × Word64)} {x : Nat}
    (h : ∀ w ∈ ws, x < w.1.toNat ∨ w.1.toNat + 8 ≤ x) : (m.setSlots ws).byte x = m.byte x := by
  induction ws generalizing m with
  | nil => rfl
  | cons w ws ih =>
    rw [Memory.setSlots_cons, ih fun w' hw' => h w' (by simp [hw']),
      Memory.byte_setSlot_other _ _ _ _ (h w (by simp))]

/-- A slot that no store goes to keeps its value. -/
theorem Memory.slot_setSlots_other {m : Memory} {ws : List (Word64 × Word64)} {a : Word64}
    (ha : a.toNat % 8 = 0) (haligned : ∀ w ∈ ws, w.1.toNat % 8 = 0) (h : ∀ w ∈ ws, w.1 ≠ a) :
    (m.setSlots ws).slot a.toNat = m.slot a.toNat := by
  induction ws generalizing m with
  | nil => rfl
  | cons w ws ih =>
    have hw := haligned w (by simp)
    have hne : w.1.toNat ≠ a.toNat := fun heq => h w (by simp) (BitVec.eq_of_toNat_eq heq)
    rw [Memory.setSlots_cons, ih (fun w' hw' => haligned w' (by simp [hw']))
      (fun w' hw' => h w' (by simp [hw']))]
    exact Memory.slot_setSlot_other _ _ _ _ (by omega)

/-- A slot that is stored to, with the same value every time, holds that value. -/
theorem Memory.slot_setSlots_of_mem {m : Memory} {ws : List (Word64 × Word64)} {a v : Word64}
    (haligned : ∀ w ∈ ws, w.1.toNat % 8 = 0) (hmem : (a, v) ∈ ws)
    (hsame : ∀ w ∈ ws, w.1 = a → w.2 = v) : (m.setSlots ws).slot a.toNat = v := by
  induction ws generalizing m with
  | nil => cases hmem
  | cons w ws ih =>
    have htail : ∀ w' ∈ ws, w'.1.toNat % 8 = 0 := fun w' hw' => haligned w' (by simp [hw'])
    rw [Memory.setSlots_cons]
    by_cases hlater : (a, v) ∈ ws
    · exact ih htail hlater fun w' hw' => hsame w' (by simp [hw'])
    · obtain rfl : (a, v) = w := (List.mem_cons.1 hmem).resolve_right hlater
      have hnone : ∀ w' ∈ ws, w'.1 ≠ a := fun w' hw' heq =>
        hlater (by rwa [← heq, ← hsame w' (by simp [hw']) heq])
      rw [Memory.slot_setSlots_other (haligned (a, v) (by simp)) htail hnone,
        Memory.slot_setSlot_same]

/-- The stores of `ws` as `MemWrite` makes them, each recorded for the walker's sake. -/
def State.storeSlots (s : State) (ws : List (Word64 × Word64)) : State :=
  ws.foldl (fun s w => s.storeSlot w.1 w.2) s

@[simp] theorem State.storeSlots_nil (s : State) : s.storeSlots [] = s := rfl

@[simp] theorem State.storeSlots_cons (s : State) (w : Word64 × Word64)
    (ws : List (Word64 × Word64)) : s.storeSlots (w :: ws) = (s.storeSlot w.1 w.2).storeSlots ws :=
  rfl

@[simp] theorem State.storeSlots_tm (s : State) (ws : List (Word64 × Word64)) :
    (s.storeSlots ws).tm = s.tm.setSlots ws := by
  induction ws generalizing s with
  | nil => rfl
  | cons w ws ih => simp [ih]

/-- The stores are recorded in the order they are made. -/
theorem State.storeSlots_opWindow_addr (s : State) (ws : List (Word64 × Word64)) :
    (s.storeSlots ws).opWindow.map (·.addr) = s.opWindow.map (·.addr) ++ ws.map (·.1) := by
  induction ws generalizing s with
  | nil => simp
  | cons w ws ih => simp [ih]

theorem State.storeSlots_frame (s : State) (ws : List (Word64 × Word64)) :
    s.storeSlots ws = { s with
      tm := (s.storeSlots ws).tm
      unsynced := (s.storeSlots ws).unsynced
      opWindow := (s.storeSlots ws).opWindow } := by
  induction ws generalizing s with
  | nil => rfl
  | cons w ws ih =>
    rw [State.storeSlots_cons, ih]
    rfl

/-! ### One fill of consecutive slots (`41_pt_fill.md` R133, R136, R138) -/

/-- The stores of a fill of `count` slots from `first`, slot `first + n` with `desc n`. -/
def tableStores (base : Word64) (first count : Nat) (desc : Nat → Word64) :
    List (Word64 × Word64) :=
  (List.range count).map fun n => (slotAddr base (first + n), desc n)

theorem mem_tableStores {base : Word64} {first count : Nat} {desc : Nat → Word64}
    {w : Word64 × Word64} :
    w ∈ tableStores base first count desc
      ↔ ∃ n < count, w = (slotAddr base (first + n), desc n) := by
  simp [tableStores, eq_comm]

theorem tableStores_succ (base : Word64) (first count : Nat) (desc : Nat → Word64) :
    tableStores base first (count + 1) desc
      = (slotAddr base first, desc 0)
        :: tableStores base (first + 1) count fun n => desc (n + 1) := by
  simp [tableStores, List.range_succ_eq_map, Nat.add_assoc, Nat.add_comm 1]

/-- Slots less than 2^61 apart are different slots. -/
theorem slotAddr_injective {base : Word64} {first n n' : Nat} (hn : n < 2 ^ 61) (hn' : n' < 2 ^ 61)
    (h : slotAddr base (first + n) = slotAddr base (first + n')) : n = n' := by
  have hoffset := congrArg BitVec.toNat ((BitVec.add_right_inj _).1 h)
  simp only [BitVec.toNat_ofNat] at hoffset
  omega

/-- A fill stores one value to each of its slots. -/
theorem tableStores_same {base : Word64} {first count n : Nat} {desc : Nat → Word64}
    (hcount : count ≤ 2 ^ 61) (hn : n < count) :
    ∀ w ∈ tableStores base first count desc, w.1 = slotAddr base (first + n) → w.2 = desc n := by
  intro w hw heq
  obtain ⟨n', hn', rfl⟩ := mem_tableStores.1 hw
  rw [slotAddr_injective (by omega) (by omega) heq]

/-- A fill of slots that can be stored to goes to its end. -/
theorem fillSlots_of_writable {base : Word64} {first count : Nat} {desc : Nat → Word64} {s : State}
    (h : SlotsWritable s.cfg base first count) :
    fillSlots base first ((List.range count).map desc) s
      = .ok (s.storeSlots (tableStores base first count desc)) := by
  induction count generalizing first desc s with
  | zero => rfl
  | succ count ih =>
    obtain ⟨haligned, hbacked⟩ := h 0 (by omega)
    have hstore : memWrite (slotAddr base first) (desc 0) s = .ok (s.storeSlot _ (desc 0)) :=
      memWrite_eq_ok.2 ⟨haligned, hbacked, rfl⟩
    have hrest : SlotsWritable s.cfg base (first + 1) count := fun n hn => by
      simpa [Nat.add_assoc, Nat.add_comm 1] using h (n + 1) (by omega)
    rw [List.range_succ_eq_map, List.map_cons, List.map_map, fillSlots, hstore,
      Progress.andThen_ok, tableStores_succ, State.storeSlots_cons]
    exact ih hrest

/-- The stores of one fill, then its barrier. -/
def State.fill (s : State) (ws : List (Word64 × Word64)) : State := (s.storeSlots ws).barrier

@[simp] theorem State.fill_cfg (s : State) (ws : List (Word64 × Word64)) :
    (s.fill ws).cfg = s.cfg := by
  rw [State.fill, State.storeSlots_frame]
  rfl

@[simp] theorem State.fill_tm (s : State) (ws : List (Word64 × Word64)) :
    (s.fill ws).tm = s.tm.setSlots ws := s.storeSlots_tm ws

@[simp] theorem State.fill_unsynced (s : State) (ws : List (Word64 × Word64)) :
    (s.fill ws).unsynced = [] := rfl

theorem fillTable_of_writable {base : Word64} {first count : Nat} {desc : Nat → Word64} {s : State}
    (h : SlotsWritable s.cfg base first count) :
    fillTable base first ((List.range count).map desc) s
      = .ok (s.fill (tableStores base first count desc)) := by
  rw [fillTable, fillSlots_of_writable h, Progress.andThen_ok, State.fill]

/-- An operation that is one fill of slots that can be stored to. -/
theorem fills_of_exec {i : Instr} {s : State} {base : Word64} {first count : Nat}
    {desc : Nat → Word64} (hcount : count ≤ 2 ^ 61) (hw : SlotsWritable s.cfg base first count)
    (h : exec i s = (fillTable base first ((List.range count).map desc) s).answer) :
    Fills i s base first count desc := by
  have haligned : ∀ w ∈ tableStores base first count desc, w.1.toNat % 8 = 0 := fun w hmem => by
    obtain ⟨n, hn, rfl⟩ := mem_tableStores.1 hmem
    exact (hw n hn).1
  rw [fillTable_of_writable hw, Progress.answer_ok] at h
  refine ⟨_, h, fun n hn => ?_, fun x hx => ?_, ?_, ?_⟩
  · rw [memRead_respond, memRead, State.fill_tm]
    exact Memory.slot_setSlots_of_mem haligned (mem_tableStores.2 ⟨n, hn, rfl⟩)
      (tableStores_same hcount hn)
  · rw [State.respond_tm, State.fill_tm]
    refine Memory.byte_setSlots_other fun w hmem => ?_
    obtain ⟨n, hn, rfl⟩ := mem_tableStores.1 hmem
    exact hx n hn
  · refine (s.storeSlots_opWindow_addr _).trans ?_
    simp [tableStores]
  · rw [State.fill, State.storeSlots_frame]
    rfl

/-! ### PT.LINK, PT.MAP and PT.FAULT -/

/-- PT.LINK's link descriptor, as the one descriptor of a fill. -/
theorem linkStep_of_fits {r : TableRecord} {va child : Word64} {s : State} {l : Level}
    (htable : checkTable (s.cfg.maxLevel.val - 1) r va = some l)
    (haligned : va.toNat % strideOf l = 0) (hfits : slotOf l r.baseVa va < entriesOf s.cfg l) :
    linkStep r va child s
      = fillTable r.basePtr (slotOf l r.baseVa va)
        ((List.range 1).map fun _ => linkDesc s.cfg child) s := by
  rw [linkStep_of_table htable, checkAlign_of_aligned (by simpa [allAligned] using haligned),
    Progress.andThen_ok, if_neg (by omega)]
  rfl

theorem exec_ptLink (level : Byte) (basePtr baseVa va child : Word64) (s : State) :
    exec (.ptLink level basePtr baseVa va child) s
      = (linkStep ⟨level, basePtr, baseVa⟩ va child s).answer := rfl

/-- Settles O10, check by check. -/
theorem ptLinkWritesOneLink : Obligations.PtLinkWritesOneLink := by
  intro level basePtr baseVa va child s
  rw [exec_ptLink]
  refine ⟨fun herror => ?_, fun l hlevel hle hbase => ?_⟩
  · rw [linkStep_of_no_table (checkTable_eq_none herror)]
    rfl
  · have htable : checkTable (s.cfg.maxLevel.val - 1) ⟨level, basePtr, baseVa⟩ va = some l :=
      checkTable_eq_some.2 ⟨⟨hlevel ▸ hle, hlevel⟩, hbase⟩
    refine ⟨fun hmisaligned => ?_, fun haligned houtside => ?_, fun haligned hfits hwritable => ?_⟩
    · rw [linkStep_of_table htable]
      exact checkAlign_andThen_answer (by simpa [allAligned] using hmisaligned) s _
    · rw [linkStep_of_table htable, checkAlign_of_aligned (by simpa [allAligned] using haligned),
        Progress.andThen_ok, if_pos houtside, Progress.answer_refused]
    · refine fills_of_exec (by decide) hwritable ?_
      rw [exec_ptLink, linkStep_of_fits htable haligned hfits]
      rfl

/-- The physical address of descriptor `n` has advanced by `n` strides (`41_pt_fill.md` R136). -/
theorem blockRun_eq_map (c : Cfg) (l : Level) (attr : Word64) (count : Nat) (p : Word64) :
    blockRun c l attr count p = (List.range count).map fun n =>
      blockDesc c l (p + BitVec.ofNat 64 (n * strideOf l)) attr := by
  induction count generalizing p with
  | zero => rfl
  | succ count ih =>
    have hadvance : ∀ n, p + BitVec.ofNat 64 (strideOf l) + BitVec.ofNat 64 (n * strideOf l)
        = p + BitVec.ofNat 64 ((n + 1) * strideOf l) := fun n => by
      rw [Nat.succ_mul, Nat.add_comm, BitVec.ofNat_add, BitVec.add_assoc]
    simp [blockRun, ih, hadvance, List.range_succ_eq_map]

/-- The checks PT.MAP and PT.FAULT share, in their order, then a fill with the descriptors `desc`: what
R136 and R138 each say of their operation. -/
def ChecksThenFills (i : Instr) (s : State) (level : Byte) (basePtr baseVa va pa size : Word64)
    (desc : Level → Nat → Word64) : Prop :=
  (level.toNat = 0 ∨ s.cfg.maxLevel.val < level.toNat ∨ va.toNat < baseVa.toNat →
      exec i s = .next (answered s .invalidArgument .none))
    ∧ ∀ l, level.toNat = levelNumber l → levelNumber l ≤ s.cfg.maxLevel.val →
      baseVa.toNat ≤ va.toNat →
      ((va.toNat % strideOf l ≠ 0 ∨ pa.toNat % strideOf l ≠ 0 ∨ size.toNat % strideOf l ≠ 0) →
        exec i s = if s.cfg.paramCheck then .next (answered s .invalidArgument .none)
          else .refused .misalignedWithoutCheck)
        ∧ (va.toNat % strideOf l = 0 → pa.toNat % strideOf l = 0 → size.toNat % strideOf l = 0 →
          entriesOf s.cfg l < slotOf l baseVa va + slotCount l size →
          exec i s = .refused .slotOutOfTable)
        ∧ (va.toNat % strideOf l = 0 → pa.toNat % strideOf l = 0 → size.toNat % strideOf l = 0 →
          slotOf l baseVa va + slotCount l size ≤ entriesOf s.cfg l → s.cfg.entries3 ≤ 2 ^ 61 →
          SlotsWritable s.cfg basePtr (slotOf l baseVa va) (slotCount l size) →
          Fills i s basePtr (slotOf l baseVa va) (slotCount l size) (desc l))

theorem allAligned_three {l : Level} {a b c : Word64} :
    allAligned l [a, b, c] = true
      ↔ a.toNat % strideOf l = 0 ∧ b.toNat % strideOf l = 0 ∧ c.toNat % strideOf l = 0 := by
  simp [allAligned_eq_true]

theorem allAligned_three_eq_false {l : Level} {a b c : Word64} :
    allAligned l [a, b, c] = false
      ↔ a.toNat % strideOf l ≠ 0 ∨ b.toNat % strideOf l ≠ 0 ∨ c.toNat % strideOf l ≠ 0 := by
  rw [← Bool.not_eq_true, allAligned_three]
  tauto

/-- A range of slots that lies in its table is one fill. -/
theorem rangeStep_of_fits {r : TableRecord} {va pa size : Word64} {descs : Level → Nat → List Word64}
    {s : State} {l : Level} (htable : checkTable s.cfg.maxLevel.val r va = some l)
    (haligned : allAligned l [va, pa, size] = true)
    (hfits : slotOf l r.baseVa va + slotCount l size ≤ entriesOf s.cfg l) :
    rangeStep r va pa size descs s
      = fillTable r.basePtr (slotOf l r.baseVa va) (descs l (slotCount l size)) s := by
  rw [rangeStep_of_table htable, checkAlign_of_aligned haligned, Progress.andThen_ok,
    if_neg (by omega)]

/-- A table holds at most 2^61 slots: R6's two numbers, and the premise on `ENTRIES[3]` (log 29). -/
theorem entriesOf_le {c : Cfg} (h : c.entries3 ≤ 2 ^ 61) (l : Level) : entriesOf c l ≤ 2 ^ 61 := by
  cases l with
  | l1 => exact (by decide : 4 ≤ 2 ^ 61)
  | l2 => exact (by decide : 512 ≤ 2 ^ 61)
  | l3 => exact h

/-- An operation that is the step PT.MAP and PT.FAULT share. -/
theorem checksThenFills_of_rangeStep {i : Instr} {s : State} {level : Byte}
    {basePtr baseVa va pa size : Word64} {descs : Level → Nat → List Word64}
    {desc : Level → Nat → Word64}
    (hexec : exec i s = (rangeStep ⟨level, basePtr, baseVa⟩ va pa size descs s).answer)
    (hdescs : ∀ l count, descs l count = (List.range count).map (desc l)) :
    ChecksThenFills i s level basePtr baseVa va pa size desc := by
  refine ⟨fun herror => ?_, fun l hlevel hle hbase => ?_⟩
  · rw [hexec, rangeStep_of_no_table (checkTable_eq_none herror)]
    rfl
  · have htable : checkTable s.cfg.maxLevel.val ⟨level, basePtr, baseVa⟩ va = some l :=
      checkTable_eq_some.2 ⟨⟨hlevel ▸ hle, hlevel⟩, hbase⟩
    refine ⟨fun hmisaligned => ?_, fun hva hpa hsize houtside => ?_,
      fun hva hpa hsize hfits hentries hwritable => ?_⟩
    · rw [hexec, rangeStep_of_table htable]
      exact checkAlign_andThen_answer (allAligned_three_eq_false.2 hmisaligned) s _
    · rw [hexec, rangeStep_of_table htable,
        checkAlign_of_aligned (allAligned_three.2 ⟨hva, hpa, hsize⟩), Progress.andThen_ok,
        if_pos houtside, Progress.answer_refused]
    · have hcount : slotCount l size ≤ 2 ^ 61 := by
        have := entriesOf_le hentries l
        omega
      refine fills_of_exec hcount hwritable ?_
      rw [hexec, rangeStep_of_fits htable (allAligned_three.2 ⟨hva, hpa, hsize⟩) hfits, hdescs]

/-- Settles O11: PT.MAP's descriptors are those of a run of blocks. -/
theorem ptMapFillsBlocks : Obligations.PtMapFillsBlocks :=
  fun level basePtr baseVa va pa size attr s =>
    checksThenFills_of_rangeStep (i := .ptMap level basePtr baseVa va pa size attr) rfl
      fun l count => blockRun_eq_map s.cfg l attr count pa

/-- Settles O12: PT.FAULT's descriptors are all 0. -/
theorem ptFaultFillsZeroes : Obligations.PtFaultFillsZeroes :=
  fun level basePtr baseVa va pa size _ =>
    checksThenFills_of_rangeStep (i := .ptFault level basePtr baseVa va pa size)
      (desc := fun _ _ => faultDesc) rfl fun _ _ => by simp

/-! ### A build that stops, or that has no sentinel (`41_pt_fill.md` R140, R142) -/

theorem Progress.andThen_assoc (p : Progress) (k k' : State → Progress) :
    (p.andThen k).andThen k' = p.andThen fun s => (k s).andThen k' := by
  cases p <;> rfl

/-- Up to the first region of `rest`, a build is the one that a sentinel ends there. -/
theorem buildRegions_append {pre : List Region} {e : Region} (rest : List Region)
    (hpre : ∀ x ∈ pre, isSentinel x = false) (he : isSentinel e = true) (s : State) :
    buildRegions (pre ++ rest) s = (buildRegions (pre ++ [e]) s).andThen (buildRegions rest) := by
  induction pre generalizing s with
  | nil => simp [buildRegions, he]
  | cons r pre ih =>
    have hr : isSentinel r = false := hpre r (by simp)
    have htail : buildRegions (pre ++ rest)
        = fun u => (buildRegions (pre ++ [e]) u).andThen (buildRegions rest) :=
      funext (ih fun x hx => hpre x (by simp [hx]))
    simp only [List.cons_append, buildRegions, hr, Bool.false_eq_true, if_false]
    cases selectSegment r.virtualAddress s.cfg.segs with
    | none => rfl
    | some g => simp only [Progress.andThen_assoc, htail]

theorem buildStep_append {pre : List Region} {e : Region} (rest : List Region)
    (hpre : ∀ x ∈ pre, isSentinel x = false) (he : isSentinel e = true) (s : State) :
    buildStep (pre ++ rest).length (pre ++ rest) s
      = (buildStep (pre ++ [e]).length (pre ++ [e]) s).andThen (buildRegions rest) := by
  simp only [buildStep, List.take_length, Progress.andThen_assoc,
    ← buildRegions_append rest hpre he]

theorem exec_ptBuild (count : BitVec 16) (regions : List Region) (s : State) :
    exec (.ptBuild count regions) s = (buildStep count.toNat regions s).answer := rfl

/-- PT.BUILD on a list whose length is `count`. -/
theorem exec_ptBuild_length {regions : List Region} {n : Nat} (hn : n = regions.length)
    (hlt : n < 2 ^ 16) (s : State) :
    exec (.ptBuild (BitVec.ofNat 16 n) regions) s
      = (buildStep regions.length regions s).answer := by
  rw [exec_ptBuild, BitVec.toNat_ofNat, Nat.mod_eq_of_lt hlt, hn]

/-- The only error of a region's step is `InvalidArgument`, before any store. -/
theorem regionStep_eq_raised {g : Segment} {r : Region} {s t : State} {e : Status}
    (h : regionStep g r s = .raised e t) : e = .invalidArgument ∧ t = s := by
  unfold regionStep at h
  split at h
  · exact rangeStep_eq_raised h
  · exact rangeStep_eq_raised h

theorem linkSegments_eq_raised {gs : List Segment} {s t : State} {e : Status}
    (h : linkSegments gs s = .raised e t) : e = .invalidArgument := by
  induction gs generalizing s with
  | nil => cases h
  | cons g gs ih =>
    rcases Progress.andThen_eq_raised.1 h with hlink | ⟨u, -, hrest⟩
    · exact (linkStep_eq_raised hlink).1
    · exact ih hrest

theorem buildRegions_eq_raised {rs : List Region} {s t : State} {e : Status}
    (h : buildRegions rs s = .raised e t) : e = .invalidArgument := by
  induction rs generalizing s with
  | nil => cases h
  | cons r rs ih =>
    unfold buildRegions at h
    split at h
    · cases h
    · split at h
      · cases h; rfl
      · rcases Progress.andThen_eq_raised.1 h with hregion | ⟨u, -, hrest⟩
        · exact (regionStep_eq_raised hregion).1
        · exact ih hrest

/-- The only error of a build is `InvalidArgument` (`60_exceptions.md` R240). -/
theorem buildStep_eq_raised {count : Nat} {regions : List Region} {s t : State} {e : Status}
    (h : buildStep count regions s = .raised e t) : e = .invalidArgument := by
  rcases Progress.andThen_eq_raised.1 h with hlink | ⟨u, -, hregions⟩
  · exact linkSegments_eq_raised hlink
  · exact buildRegions_eq_raised hregions

/-- A build that answers `OK` has gone to its end, under the same `CFG`. -/
theorem buildStep_of_answeredOk {count : Nat} {regions : List Region} {s t : State}
    (h : (buildStep count regions s).answer = .next t) (hok : answeredOk t = true) :
    ∃ u, buildStep count regions s = .ok u ∧ u.cfg = s.cfg ∧ t = u.respond .ok .none := by
  rcases Progress.answer_eq_next.1 h with ⟨u, hu, rfl⟩ | ⟨e, u, hu, rfl⟩
  · have hwrites := buildStep_endsIn count regions s
    rw [hu] at hwrites
    obtain ⟨_, _, _, hframe⟩ := TableWrites.frame hwrites
    exact ⟨u, hu, by rw [hframe], rfl⟩
  · obtain rfl := buildStep_eq_raised hu
    cases hok

/-- With `PARAM_CHECK`, a misaligned range raises the error before any store, at every level. -/
theorem rangeStep_of_misaligned {r : TableRecord} {va pa size : Word64}
    {descs : Level → Nat → List Word64} {s : State} (hcheck : s.cfg.paramCheck = true)
    (hmisaligned : ∀ l, checkTable s.cfg.maxLevel.val r va = some l →
      allAligned l [va, pa, size] = false) :
    rangeStep r va pa size descs s = .raised .invalidArgument s := by
  cases htable : checkTable s.cfg.maxLevel.val r va with
  | none => exact rangeStep_of_no_table htable
  | some l =>
    rw [rangeStep_of_table htable, checkAlign_of_misaligned (hmisaligned l htable), if_pos hcheck,
      Progress.andThen_raised]

/-- A level-2 record names level 2 if it names a level. -/
theorem eq_l2_of_checkTable {hi : Nat} {base baseVa va : Word64} {l : Level}
    (h : checkTable hi ⟨2, base, baseVa⟩ va = some l) : l = .l2 := by
  obtain ⟨⟨-, hnumber⟩, -⟩ := checkTable_eq_some.1 h
  cases l with
  | l1 => cases hnumber
  | l2 => rfl
  | l3 => cases hnumber

theorem regionStep_of_misaligned {g : Segment} {r : Region} {s : State}
    (hcheck : s.cfg.paramCheck = true)
    (hmisaligned : allAligned .l2 [r.virtualAddress, r.physicalAddress, r.size] = false) :
    regionStep g r s = .raised .invalidArgument s := by
  have hlevel : ∀ l,
      checkTable s.cfg.maxLevel.val ⟨2, g.tablePtr, g.baseVa⟩ r.virtualAddress = some l →
      allAligned l [r.virtualAddress, r.physicalAddress, r.size] = false := fun l hl =>
    eq_l2_of_checkTable hl ▸ hmisaligned
  unfold regionStep
  split
  · exact rangeStep_of_misaligned hcheck hlevel
  · exact rangeStep_of_misaligned hcheck hlevel

/-- A region without a segment, or misaligned under `PARAM_CHECK`, ends the build where it stands. -/
theorem buildRegions_of_failing {r : Region} (rs : List Region) {s : State}
    (hr : isSentinel r = false)
    (hfails : selectSegment r.virtualAddress s.cfg.segs = none
      ∨ (s.cfg.paramCheck = true
        ∧ allAligned .l2 [r.virtualAddress, r.physicalAddress, r.size] = false)) :
    buildRegions (r :: rs) s = .raised .invalidArgument s := by
  simp only [buildRegions, hr, Bool.false_eq_true, if_false]
  cases hselected : selectSegment r.virtualAddress s.cfg.segs with
  | none => rfl
  | some g =>
    obtain ⟨hcheck, hmisaligned⟩ := hfails.resolve_left (by simp [hselected])
    simp only [regionStep_of_misaligned hcheck hmisaligned, Progress.andThen_raised]

/-- Settles O16: the build is the shorter one, then the failing region. -/
theorem ptBuildStopsAtFirstFailure : Obligations.PtBuildStopsAtFirstFailure := by
  intro s t pre post r e hpre hr he hlength hshort hok hfails
  rw [exec_ptBuild_length (by simp) (by omega)] at hshort
  obtain ⟨u, hu, hcfg, rfl⟩ := buildStep_of_answeredOk hshort hok
  rw [exec_ptBuild_length (by simp; omega) (by omega), buildStep_append _ hpre he, hu,
    Progress.andThen_ok, buildRegions_of_failing post hr (by rwa [hcfg])]
  rfl

/-- Settles O17: the build is the shorter one, then a list with nothing left in it. -/
theorem ptBuildWithoutSentinelIsRefused : Obligations.PtBuildWithoutSentinelIsRefused := by
  intro s t rs e hrs he hlength hshort hok
  rw [exec_ptBuild_length (by simp) (by omega)] at hshort
  obtain ⟨u, hu, -, -⟩ := buildStep_of_answeredOk hshort hok
  have happend := buildStep_append [] hrs he s
  rw [List.append_nil, hu, Progress.andThen_ok, buildRegions] at happend
  rw [exec_ptBuild_length rfl (by omega), happend, Progress.answer_refused]

/-! ### What a configuration that can be built gives (`00_scope.md` R7) -/

/-- What `buildReady` says of the configuration, with R7's constraints as they are used here. -/
structure TablesReady (c : Cfg) : Prop where
  maxLevel : 2 ≤ c.maxLevel.val
  base : ∀ g ∈ c.segs, g.baseVa.toNat % 2 ^ 30 = 0 ∧ g.baseVa.toNat < 2 ^ 32
  basesDistinct : (c.segs.map (·.baseVa)).Nodup
  aligned : ∀ tb ∈ c.tables, tb.1 % 8 = 0
  backed : ∀ tb ∈ c.tables, tb.1 + tb.2 ≤ 2 ^ 64
    ∧ ∃ m ∈ c.tmMap, m.base ≤ tb.1 ∧ tb.1 + tb.2 ≤ m.base + m.size
  linkTableApart : ∀ g ∈ c.segs, c.l1Base.toNat + 8 * 4 ≤ g.tablePtr.toNat
    ∨ g.tablePtr.toNat + 8 * 512 ≤ c.l1Base.toNat

/-- A region that fits has a segment whose table holds its slots. -/
theorem regionFits_iff {c : Cfg} {r : Region} :
    regionFits c r = true ↔ isSentinel r = false
      ∧ allAligned .l2 [r.virtualAddress, r.physicalAddress, r.size] = true
      ∧ ∃ g, selectSegment r.virtualAddress c.segs = some g
        ∧ slotOf .l2 g.baseVa r.virtualAddress + slotCount .l2 r.size ≤ 512 := by
  unfold regionFits
  cases selectSegment r.virtualAddress c.segs <;> simp [and_assoc]

theorem tablesReady_of_buildReady {c : Cfg} {rs : List Region} (h : buildReady c rs = true) :
    TablesReady c ∧ ∀ r ∈ rs, regionFits c r = true := by
  simp only [buildReady, Cfg.wf, Cfg.segsWf, Cfg.alignWf, Cfg.disjointWf, tablesBacked,
    Bool.and_eq_true, decide_eq_true_eq, List.all_eq_true, List.any_eq_true, beq_iff_eq] at h
  obtain ⟨⟨⟨⟨⟨⟨⟨⟨⟨-, ⟨-, hbase⟩, hdistinct⟩, halign⟩, hdisjoint⟩, -⟩, -⟩, hlevel⟩, halign8⟩,
    hbacked⟩, hfits⟩ := h
  have hapart := (List.pairwise_cons.1 hdisjoint).1
  refine ⟨⟨hlevel, fun g hg => ?_, hdistinct, fun tb htb => ?_, hbacked, fun g hg => ?_⟩, hfits⟩
  · simpa [Segment.baseWf] using hbase g hg
  · exact Nat.mod_eq_zero_of_dvd
      ((Nat.dvd_of_mod_eq_zero halign8).trans (Nat.dvd_of_mod_eq_zero (halign tb htb)))
  · exact hapart _ (List.mem_map_of_mem hg)

theorem l1Table_mem (c : Cfg) : (c.l1Base.toNat, 8 * 4) ∈ c.tables := by simp [Cfg.tables]

theorem segmentTable_mem {c : Cfg} {g : Segment} (h : g ∈ c.segs) :
    (g.tablePtr.toNat, 8 * 512) ∈ c.tables :=
  List.mem_cons_of_mem _ (List.mem_map_of_mem h)

section Ready

variable {c : Cfg} {g : Segment} {r : Region} {s : State}

/-- A slot inside a table lies at its integer address, and can be stored to. -/
theorem TablesReady.slot (hc : TablesReady c) {base : Word64} {entries k : Nat}
    (htable : (base.toNat, 8 * entries) ∈ c.tables) (hk : k < entries) :
    (slotAddr base k).toNat = base.toNat + 8 * k ∧ (slotAddr base k).toNat % 8 = 0
      ∧ slotBacked c (slotAddr base k) = true := by
  have haligned : base.toNat % 8 = 0 := hc.aligned _ htable
  obtain ⟨hend, m, hm, hlow, hhigh⟩ := hc.backed _ htable
  simp only at hend hlow hhigh
  have haddr : (slotAddr base k).toNat = base.toNat + 8 * k := slotAddr_toNat (by omega)
  refine ⟨haddr, by omega, List.any_eq_true.2 ⟨m, hm, ?_⟩⟩
  rw [haddr, Bool.and_eq_true, decide_eq_true_eq, decide_eq_true_eq]
  omega

theorem TablesReady.slotsWritable (hc : TablesReady c) {base : Word64} {entries first count : Nat}
    (htable : (base.toNat, 8 * entries) ∈ c.tables) (hfits : first + count ≤ entries) :
    SlotsWritable c base first count :=
  fun _ _ => (hc.slot htable (by omega)).2

/-- R7's bases lie in the level-1 table, one slot each. -/
theorem TablesReady.linkSlot (hc : TablesReady c) (hg : g ∈ c.segs) :
    slotOf .l1 0 g.baseVa < 4 ∧ g.baseVa.toNat = 2 ^ 30 * slotOf .l1 0 g.baseVa := by
  obtain ⟨haligned, hlt⟩ := hc.base g hg
  have hzero : (0 : Word64).toNat = 0 := rfl
  simp only [slotOf, strideOf]
  omega

theorem TablesReady.eq_of_linkSlot (hc : TablesReady c) {g' : Segment} (hg : g ∈ c.segs)
    (hg' : g' ∈ c.segs)
    (h : slotAddr c.l1Base (slotOf .l1 0 g'.baseVa) = slotAddr c.l1Base (slotOf .l1 0 g.baseVa)) :
    g' = g := by
  obtain ⟨hlt, hbase⟩ := hc.linkSlot hg
  obtain ⟨hlt', hbase'⟩ := hc.linkSlot hg'
  have haddr := congrArg BitVec.toNat h
  rw [(hc.slot (l1Table_mem c) hlt).1, (hc.slot (l1Table_mem c) hlt').1] at haddr
  have hva : g'.baseVa = g.baseVa := BitVec.eq_of_toNat_eq (by omega)
  exact List.inj_on_of_nodup_map hc.basesDistinct hg' hg hva

/-! ### The fills of a build (`41_pt_fill.md` R141) -/

/-- The link of one segment, in the slot of the level-1 table that holds its base. -/
def linkFill (c : Cfg) (g : Segment) : List (Word64 × Word64) :=
  tableStores c.l1Base (slotOf .l1 0 g.baseVa) 1 fun _ => linkDesc c g.tablePtr

/-- Descriptor `n` of a region. -/
def regionDesc (c : Cfg) (r : Region) (n : Nat) : Word64 :=
  if r.attr = attrFault then faultDesc
  else blockDesc c .l2 (r.physicalAddress + BitVec.ofNat 64 (n * strideOf .l2)) r.attr

/-- The descriptors of one region, in the table of its segment. -/
def regionFill (c : Cfg) (r : Region) : List (Word64 × Word64) :=
  match selectSegment r.virtualAddress c.segs with
  | none => []
  | some g => tableStores g.tablePtr (slotOf .l2 g.baseVa r.virtualAddress) (slotCount .l2 r.size)
      (regionDesc c r)

/-- The fills of a build, each ended by its barrier. -/
def State.fillAll (s : State) (fills : List (List (Word64 × Word64))) : State :=
  fills.foldl State.fill s

theorem mem_linkFill {w : Word64 × Word64} :
    w ∈ linkFill c g
      ↔ w = (slotAddr c.l1Base (slotOf .l1 0 g.baseVa), linkDesc c g.tablePtr) := by
  simp [linkFill, mem_tableStores]

theorem mem_regionFill {w : Word64 × Word64} :
    w ∈ regionFill c r ↔ ∃ g, selectSegment r.virtualAddress c.segs = some g
      ∧ ∃ n < slotCount .l2 r.size, w = (regionSlot g r n, regionDesc c r n) := by
  unfold regionFill
  cases selectSegment r.virtualAddress c.segs <;> simp [mem_tableStores, regionSlot]

@[simp] theorem State.fillAll_nil (s : State) : s.fillAll [] = s := rfl

@[simp] theorem State.fillAll_cons (s : State) (ws : List (Word64 × Word64))
    (fills : List (List (Word64 × Word64))) :
    s.fillAll (ws :: fills) = (s.fill ws).fillAll fills := rfl

theorem State.fillAll_append (s : State) (fills fills' : List (List (Word64 × Word64))) :
    s.fillAll (fills ++ fills') = (s.fillAll fills).fillAll fills' := List.foldl_append

@[simp] theorem State.fillAll_cfg (s : State) (fills : List (List (Word64 × Word64))) :
    (s.fillAll fills).cfg = s.cfg := by
  induction fills generalizing s with
  | nil => rfl
  | cons ws fills ih => rw [State.fillAll_cons, ih, State.fill_cfg]

theorem State.fillAll_tm (s : State) (fills : List (List (Word64 × Word64))) :
    (s.fillAll fills).tm = s.tm.setSlots fills.flatten := by
  induction fills generalizing s with
  | nil => rfl
  | cons ws fills ih =>
    rw [State.fillAll_cons, ih, State.fill_tm, List.flatten_cons, Memory.setSlots_append]

/-- After any fill, its barrier has left no store outstanding. -/
theorem State.fillAll_unsynced (s : State) (fills : List (List (Word64 × Word64))) :
    (s.fillAll fills).unsynced = if fills = [] then s.unsynced else [] := by
  induction fills generalizing s with
  | nil => rfl
  | cons ws fills ih =>
    rw [State.fillAll_cons, ih, State.fill_unsynced, ite_self, if_neg (by simp)]

theorem linkStep_of_segment (hc : TablesReady s.cfg) (hg : g ∈ s.cfg.segs) :
    linkStep ⟨1, s.cfg.l1Base, 0⟩ g.baseVa g.tablePtr s = .ok (s.fill (linkFill s.cfg g)) := by
  have hmax := hc.maxLevel
  obtain ⟨hslot, -⟩ := hc.linkSlot hg
  have htable : checkTable (s.cfg.maxLevel.val - 1) ⟨1, s.cfg.l1Base, 0⟩ g.baseVa = some .l1 :=
    checkTable_eq_some.2 ⟨⟨Nat.le_sub_one_of_lt hmax, rfl⟩, Nat.zero_le _⟩
  rw [linkStep_of_fits htable (hc.base g hg).1 hslot]
  exact fillTable_of_writable (hc.slotsWritable (l1Table_mem _) hslot)

theorem linkSegments_eq_ok {gs : List Segment} (hc : TablesReady s.cfg)
    (hgs : ∀ g ∈ gs, g ∈ s.cfg.segs) :
    linkSegments gs s = .ok (s.fillAll (gs.map (linkFill s.cfg))) := by
  induction gs generalizing s with
  | nil => rfl
  | cons g gs ih =>
    have hcfg := s.fill_cfg (linkFill s.cfg g)
    rw [linkSegments, linkStep_of_segment hc (hgs g (by simp)), Progress.andThen_ok,
      ih (by rwa [hcfg]) fun g' hg' => by rw [hcfg]; exact hgs g' (by simp [hg']), hcfg,
      List.map_cons, State.fillAll_cons]

theorem regionStep_of_fits (hc : TablesReady s.cfg) (hr : regionFits s.cfg r = true)
    (hg : selectSegment r.virtualAddress s.cfg.segs = some g) :
    regionStep g r s = .ok (s.fill (regionFill s.cfg r)) := by
  obtain ⟨-, haligned, g', hg', hfits⟩ := regionFits_iff.1 hr
  obtain rfl : g = g' := Option.some.inj (hg.symm.trans hg')
  obtain ⟨hmem, hbase, -⟩ := selectSegment_spec hg
  have htable :
      checkTable s.cfg.maxLevel.val ⟨2, g.tablePtr, g.baseVa⟩ r.virtualAddress = some .l2 :=
    checkTable_eq_some.2 ⟨⟨hc.maxLevel, rfl⟩, hbase⟩
  have hfill := fillTable_of_writable (desc := regionDesc s.cfg r)
    (hc.slotsWritable (segmentTable_mem hmem) hfits)
  simp only [regionFill, hg]
  rw [← hfill]
  unfold regionStep
  split
  · next hfault =>
    have hdesc : regionDesc s.cfg r = fun _ => faultDesc := funext fun n => if_pos hfault
    rw [faultStep, rangeStep_of_fits htable haligned hfits, hdesc]
    simp
  · next hblock =>
    have hdesc : regionDesc s.cfg r = fun n =>
        blockDesc s.cfg .l2 (r.physicalAddress + BitVec.ofNat 64 (n * strideOf .l2)) r.attr :=
      funext fun n => if_neg hblock
    rw [mapStep, rangeStep_of_fits htable haligned hfits, hdesc, blockRun_eq_map]

theorem buildRegions_eq_ok {rs : List Region} {e : Region} (rest : List Region)
    (hc : TablesReady s.cfg) (hrs : ∀ r ∈ rs, regionFits s.cfg r = true)
    (he : isSentinel e = true) :
    buildRegions (rs ++ e :: rest) s = .ok (s.fillAll (rs.map (regionFill s.cfg))) := by
  induction rs generalizing s with
  | nil => simp [buildRegions, he]
  | cons r rs ih =>
    have hr := hrs r (by simp)
    obtain ⟨hsentinel, -, g, hg, -⟩ := regionFits_iff.1 hr
    have hcfg := s.fill_cfg (regionFill s.cfg r)
    simp only [List.cons_append, buildRegions, hsentinel, Bool.false_eq_true, if_false, hg]
    rw [regionStep_of_fits hc hr hg, Progress.andThen_ok,
      ih (by rwa [hcfg]) fun r' hr' => by rw [hcfg]; exact hrs r' (by simp [hr']), hcfg,
      List.map_cons, State.fillAll_cons]

/-- The fills of a build of regions that fit: every segment's link, then every region. -/
def buildFills (c : Cfg) (rs : List Region) : List (List (Word64 × Word64)) :=
  c.segs.map (linkFill c) ++ rs.map (regionFill c)

/-- A build of regions that fit, before a sentinel within `count`, goes to its end. -/
theorem buildStep_eq_ok {rs : List Region} {e : Region} {count : Nat} (rest : List Region)
    (hc : TablesReady s.cfg) (hrs : ∀ r ∈ rs, regionFits s.cfg r = true)
    (he : isSentinel e = true) (hcount : rs.length < count) :
    buildStep count (rs ++ e :: rest) s = .ok (s.fillAll (buildFills s.cfg rs)) := by
  obtain ⟨k, rfl⟩ := Nat.exists_eq_add_of_lt hcount
  have hlinks := s.fillAll_cfg (s.cfg.segs.map (linkFill s.cfg))
  have htake : (rs ++ e :: rest).take (rs.length + k + 1) = rs ++ e :: rest.take k := by
    rw [Nat.add_assoc, List.take_length_add_append, List.take_succ_cons]
  rw [buildStep, linkSegments_eq_ok hc fun _ hg => hg, Progress.andThen_ok, htake,
    buildRegions_eq_ok _ (by rwa [hlinks]) (by rwa [hlinks]) he, hlinks, buildFills,
    State.fillAll_append]

/-! ### What a build leaves in `TM` (`41_pt_fill.md` R141, R143) -/

/-- Every store of a build is a link or a region's descriptor. -/
theorem mem_buildFills {rs : List Region} {w : Word64 × Word64} :
    w ∈ (buildFills c rs).flatten
      ↔ (∃ g ∈ c.segs, w ∈ linkFill c g) ∨ ∃ r ∈ rs, w ∈ regionFill c r := by
  simp [buildFills]

/-- A link lies in the level-1 table. -/
theorem TablesReady.linkFill_range (hc : TablesReady c) (hg : g ∈ c.segs) {w : Word64 × Word64}
    (hw : w ∈ linkFill c g) :
    w.1.toNat % 8 = 0 ∧ c.l1Base.toNat ≤ w.1.toNat ∧ w.1.toNat + 8 ≤ c.l1Base.toNat + 8 * 4 := by
  obtain rfl := mem_linkFill.1 hw
  obtain ⟨hslot, -⟩ := hc.linkSlot hg
  obtain ⟨haddr, haligned, -⟩ := hc.slot (l1Table_mem c) hslot
  refine ⟨haligned, ?_⟩
  simp only [haddr]
  omega

/-- A region's descriptors lie in the table of its segment. -/
theorem TablesReady.regionFill_range (hc : TablesReady c) (hr : regionFits c r = true)
    {w : Word64 × Word64} (hw : w ∈ regionFill c r) :
    w.1.toNat % 8 = 0 ∧ ∃ g ∈ c.segs,
      g.tablePtr.toNat ≤ w.1.toNat ∧ w.1.toNat + 8 ≤ g.tablePtr.toNat + 8 * 512 := by
  obtain ⟨-, -, g', hg', hfits⟩ := regionFits_iff.1 hr
  obtain ⟨g, hg, n, hn, rfl⟩ := mem_regionFill.1 hw
  obtain rfl : g = g' := Option.some.inj (hg.symm.trans hg')
  obtain ⟨hmem, -, -⟩ := selectSegment_spec hg
  have hslot : slotOf .l2 g.baseVa r.virtualAddress + n < 512 := by omega
  obtain ⟨haddr, haligned, -⟩ := hc.slot (segmentTable_mem hmem) hslot
  refine ⟨haligned, g, hmem, ?_⟩
  simp only [regionSlot, haddr]
  omega

/-- Without segments no region fits, so there is nothing to do. -/
theorem buildFills_eq_nil_iff {rs : List Region} (hrs : ∀ r ∈ rs, regionFits c r = true) :
    buildFills c rs = [] ↔ c.segs = [] := by
  refine ⟨fun h => List.map_eq_nil_iff.1 (List.append_eq_nil_iff.1 h).1, fun hsegs => ?_⟩
  have hnone : rs = [] := List.eq_nil_iff_forall_not_mem.2 fun r hr => by
    obtain ⟨-, -, g, hg, -⟩ := regionFits_iff.1 (hrs r hr)
    simp [hsegs, selectSegment] at hg
  simp [buildFills, hsegs, hnone]

end Ready

section Build

variable {c : Cfg} {rs : List Region} (hc : TablesReady c) (hrs : ∀ r ∈ rs, regionFits c r = true)

include hc hrs

/-- Every store of a build is an aligned slot inside a table. -/
theorem buildFills_range {w : Word64 × Word64} (hw : w ∈ (buildFills c rs).flatten) :
    w.1.toNat % 8 = 0 ∧ ∃ tb ∈ c.tables, tb.1 ≤ w.1.toNat ∧ w.1.toNat + 8 ≤ tb.1 + tb.2 := by
  rcases mem_buildFills.1 hw with ⟨g, hg, hlink⟩ | ⟨r, hr, hregion⟩
  · obtain ⟨haligned, hrange⟩ := hc.linkFill_range hg hlink
    exact ⟨haligned, _, l1Table_mem c, hrange⟩
  · obtain ⟨haligned, g, hg, hrange⟩ := hc.regionFill_range (hrs r hr) hregion
    exact ⟨haligned, _, segmentTable_mem hg, hrange⟩

/-- No region stores to a link's slot, and no other segment has it. -/
theorem slot_of_link (m : Memory) {g : Segment} (hg : g ∈ c.segs) :
    (m.setSlots (buildFills c rs).flatten).slot
      (slotAddr c.l1Base (slotOf .l1 0 g.baseVa)).toNat = linkDesc c g.tablePtr := by
  have hlink := mem_linkFill.2 (rfl : (slotAddr c.l1Base (slotOf .l1 0 g.baseVa), _) = _)
  refine Memory.slot_setSlots_of_mem (fun w hw => (buildFills_range hc hrs hw).1)
    (mem_buildFills.2 (.inl ⟨g, hg, hlink⟩)) fun w hw heq => ?_
  rcases mem_buildFills.1 hw with ⟨g', hg', hlink'⟩ | ⟨r, hr, hregion⟩
  · obtain rfl := mem_linkFill.1 hlink'
    rw [hc.eq_of_linkSlot hg hg' heq]
  · obtain ⟨-, g', hg', hlow, hhigh⟩ := hc.regionFill_range (hrs r hr) hregion
    obtain ⟨-, hlinkLow, hlinkHigh⟩ := hc.linkFill_range hg hlink
    have hapart := hc.linkTableApart g' hg'
    rw [heq] at hlow hhigh
    simp only at hlinkLow hlinkHigh
    omega

/-- A slot that no later region stores to holds its region's descriptor. -/
theorem slot_of_region (m : Memory) {pre post : List Region} {r : Region} {g : Segment} {n : Nat}
    (hsplit : rs = pre ++ r :: post) (hg : selectSegment r.virtualAddress c.segs = some g)
    (hn : n < slotCount .l2 r.size)
    (hlast : ∀ r' ∈ post, ∀ g', selectSegment r'.virtualAddress c.segs = some g' →
      ∀ n' < slotCount .l2 r'.size, regionSlot g' r' n' ≠ regionSlot g r n) :
    (m.setSlots (buildFills c rs).flatten).slot (regionSlot g r n).toNat = regionDesc c r n := by
  have hr : r ∈ rs := by simp [hsplit]
  obtain ⟨-, -, g', hg', hfits⟩ := regionFits_iff.1 (hrs r hr)
  have hown : (regionSlot g r n, regionDesc c r n) ∈ regionFill c r :=
    mem_regionFill.2 ⟨g, hg, n, hn, rfl⟩
  have hflatten : (buildFills c rs).flatten = (buildFills c pre).flatten
      ++ (regionFill c r ++ (post.map (regionFill c)).flatten) := by
    simp [buildFills, hsplit]
  have haligned : ∀ w ∈ regionFill c r ++ (post.map (regionFill c)).flatten,
      w.1.toNat % 8 = 0 := fun w hw =>
    (buildFills_range hc hrs (hflatten ▸ List.mem_append_right _ hw)).1
  rw [hflatten, Memory.setSlots_append]
  refine Memory.slot_setSlots_of_mem haligned (List.mem_append_left _ hown) fun w hw heq => ?_
  rcases List.mem_append.1 hw with hsame | hlater
  · have hcount : slotCount .l2 r.size ≤ 2 ^ 61 := by omega
    simp only [regionFill, hg] at hsame
    exact tableStores_same hcount hn w hsame heq
  · obtain ⟨_, hmem, hw'⟩ := List.mem_flatten.1 hlater
    obtain ⟨r', hr', rfl⟩ := List.mem_map.1 hmem
    obtain ⟨g'', hg'', n', hn', rfl⟩ := mem_regionFill.1 hw'
    exact absurd heq (hlast r' hr' g'' hg'' n' hn')

/-- A slot that is no link's and no region's keeps its value. -/
theorem slot_of_no_store (m : Memory) {a : Word64} (ha : a.toNat % 8 = 0)
    (hlinks : ∀ g ∈ c.segs, a ≠ slotAddr c.l1Base (slotOf .l1 0 g.baseVa))
    (hregions : ∀ r ∈ rs, ∀ g, selectSegment r.virtualAddress c.segs = some g →
      ∀ n < slotCount .l2 r.size, a ≠ regionSlot g r n) :
    (m.setSlots (buildFills c rs).flatten).slot a.toNat = m.slot a.toNat := by
  refine Memory.slot_setSlots_other ha (fun w hw => (buildFills_range hc hrs hw).1)
    fun w hw heq => ?_
  rcases mem_buildFills.1 hw with ⟨g, hg, hlink⟩ | ⟨r, hr, hregion⟩
  · obtain rfl := mem_linkFill.1 hlink
    exact hlinks g hg heq.symm
  · obtain ⟨g, hg, n, hn, rfl⟩ := mem_regionFill.1 hregion
    exact hregions r hr g hg n hn heq.symm

/-- A byte outside the tables keeps its value. -/
theorem byte_outside_tables (m : Memory) {x : Nat}
    (hx : ∀ tb ∈ c.tables, x < tb.1 ∨ tb.1 + tb.2 ≤ x) :
    (m.setSlots (buildFills c rs).flatten).byte x = m.byte x := by
  refine Memory.byte_setSlots_other fun w hw => ?_
  obtain ⟨-, tb, htb, hlow, hhigh⟩ := buildFills_range hc hrs hw
  have := hx tb htb
  omega

end Build

/-- Settles O15: the build is one list of fills, and each clause is read off that list. -/
theorem ptBuildProgramsTables : Obligations.PtBuildProgramsTables := by
  intro s rs rest e count hready he hcount
  obtain ⟨hc, hrs⟩ := tablesReady_of_buildReady hready
  have hbuild := buildStep_eq_ok rest hc hrs he hcount
  have htm := s.fillAll_tm (buildFills s.cfg rs)
  have hread : ∀ a, memRead ((s.fillAll (buildFills s.cfg rs)).respond .ok .none) a
      = (s.tm.setSlots (buildFills s.cfg rs).flatten).slot a.toNat := fun a => by
    rw [memRead_respond, memRead, htm]
  refine ⟨(s.fillAll (buildFills s.cfg rs)).respond .ok .none, by rw [exec_ptBuild, hbuild]; rfl,
    fun g hg => ?_, fun pre r post g hsplit hg n hn hlast => ?_, fun a ha hlinks hregions => ?_,
    fun x hx => ?_, ?_⟩
  · rw [hread]
    exact slot_of_link hc hrs s.tm hg
  · rw [hread]
    exact slot_of_region hc hrs s.tm hsplit hg hn hlast
  · rw [hread]
    exact slot_of_no_store hc hrs s.tm ha hlinks hregions
  · rw [State.respond_tm, htm]
    exact byte_outside_tables hc hrs s.tm hx
  · have hunsynced := s.fillAll_unsynced (buildFills s.cfg rs)
    simp only [buildFills_eq_nil_iff hrs] at hunsynced
    have hwrites := buildStep_endsIn count.toNat (rs ++ e :: rest) s
    rw [hbuild] at hwrites
    obtain ⟨tm, unsynced, opWindow, hframe⟩ := TableWrites.frame hwrites
    rw [← hunsynced, hframe]
    rfl

end Sys2Proof.Machine

/-! The statements of `42_can_dlc.md`: the stride rule and the DLC table as integer arithmetic (R160 to R162),
the laws of the pair (R164), the two DLC operations (R162, R163) and FRM.CHECK (R165, R166). -/

namespace Sys2Proof.Machine

open Sys2Proof.Claims

/-! ### The stride rule (`42_can_dlc.md` R162) -/

/-- The code of the stride rule as an integer, before it is cut to its 4 bits. -/
def strideCode (round : DlcRound) (n : Nat) : Nat :=
  if n ≤ 8 then n
  else if n ≤ 24 then 8 + roundedDiv round (n - 8) 4
  else 11 + roundedDiv round n 16

/-- `ceil_div` with R162's rounding terms written out. -/
theorem strideCode_up (n : Nat) :
    strideCode .up n
      = if n ≤ 8 then n else if n ≤ 24 then 8 + (n - 8 + 3) / 4 else 11 + (n + 15) / 16 := rfl

theorem strideCode_down (n : Nat) :
    strideCode .down n
      = if n ≤ 8 then n else if n ≤ 24 then 8 + (n - 8) / 4 else 11 + n / 16 := rfl

theorem bytesToDlc_of_gt (round : DlcRound) {n : Nat} (h : 64 < n) : bytesToDlc round n = none :=
  if_pos h

theorem bytesToDlc_of_le (round : DlcRound) {n : Nat} (h : n ≤ 64) :
    bytesToDlc round n = some (BitVec.ofNat 4 (strideCode round n)) := by
  rw [bytesToDlc, if_neg (by omega), strideCode]
  split
  · rfl
  · split <;> rfl

theorem strideCode_mono (round : DlcRound) {m n : Nat} (h : m ≤ n) :
    strideCode round m ≤ strideCode round n := by
  cases round with
  | up => grind [strideCode_up]
  | down => grind [strideCode_down]

/-- Up to 64 bytes the code fits its 4 bits: the rule is non-decreasing and gives 15 at 64. -/
theorem strideCode_lt (round : DlcRound) {n : Nat} (h : n ≤ 64) : strideCode round n < 16 :=
  calc strideCode round n ≤ strideCode round 64 := strideCode_mono round h
    _ = 15 := by cases round <;> rfl
    _ < 16 := by decide

theorem strideCode_toNat (round : DlcRound) {n : Nat} (h : n ≤ 64) :
    (BitVec.ofNat 4 (strideCode round n)).toNat = strideCode round n := by
  rw [BitVec.toNat_ofNat, Nat.mod_eq_of_lt (strideCode_lt round h)]

/-! ### The DLC table (`42_can_dlc.md` R160, R161) -/

/-- The table runs in strides of 1, 4 and 16 bytes. -/
theorem dlcBytes_eq (code : BitVec 4) :
    dlcBytes code
      = if code.toNat ≤ 8 then code.toNat
        else if code.toNat ≤ 12 then 8 + 4 * (code.toNat - 8)
        else 16 * (code.toNat - 11) := by
  revert code
  decide

theorem dlcBytes_le (code : BitVec 4) : dlcBytes code ≤ 64 := by
  have hcode := code.isLt
  grind [dlcBytes_eq]

/-- The valid lengths are the table's entries. -/
theorem validLen_iff {n : Nat} : validLen n = true ↔ ∃ code, dlcBytes code = n := by
  rw [validLen, List.contains_iff_mem]
  constructor
  · intro h
    obtain ⟨i, hi, rfl⟩ := List.mem_iff_getElem.1 h
    have hi16 : i < 2 ^ 4 := hi
    refine ⟨BitVec.ofNatLT i hi16, ?_⟩
    rw [dlcBytes, BitVec.toNat_ofNatLT, List.getD_eq_getElem _ _ hi]
  · rintro ⟨code, rfl⟩
    rw [dlcBytes, List.getD_eq_getElem (hn := code.isLt)]
    exact List.getElem_mem _

/-! ### The stride rule against the table (`42_can_dlc.md` R164) -/

/-- The table's entries lie on the strides, so neither rounding moves them. -/
theorem strideCode_dlcBytes (round : DlcRound) (code : BitVec 4) :
    strideCode round (dlcBytes code) = code.toNat := by
  have hcode := code.isLt
  cases round with
  | up => grind [strideCode_up, dlcBytes_eq]
  | down => grind [strideCode_down, dlcBytes_eq]

theorem bytesToDlc_dlcBytes (round : DlcRound) (code : BitVec 4) :
    bytesToDlc round (dlcBytes code) = some code := by
  rw [bytesToDlc_of_le round (dlcBytes_le code), strideCode_dlcBytes, BitVec.ofNat_toNat,
    BitVec.setWidth_eq]

theorem le_dlcBytes_strideCode_up {n : Nat} (h : n ≤ 64) :
    n ≤ dlcBytes (BitVec.ofNat 4 (strideCode .up n)) := by
  rw [dlcBytes_eq, strideCode_toNat .up h]
  grind [strideCode_up]

theorem dlcBytes_strideCode_down_le {n : Nat} (h : n ≤ 64) :
    dlcBytes (BitVec.ofNat 4 (strideCode .down n)) ≤ n := by
  rw [dlcBytes_eq, strideCode_toNat .down h]
  grind [strideCode_down]

/-! ### The frame shape (`42_can_dlc.md` R165) -/

/-- The machine's check is the shape the statements speak of. -/
theorem checkFrame_iff {c : Cfg} {f : Frame} : checkFrame c f = true ↔ GoodFrame c f := by
  rw [checkFrame, GoodFrame]
  split
  · rw [Bool.and_eq_true, decide_eq_true_iff, beq_iff_eq]
  · rw [validLen, List.contains_iff_mem, dlcTable]

/-! ### The three operations (`42_can_dlc.md` R162, R163, R166) -/

theorem exec_dlcB2c_of_le {n : Byte} (h : n.toNat ≤ 64) (s : State) :
    exec (.dlcB2c n) s
      = .next (answered s .ok (.code (BitVec.ofNat 4 (strideCode s.cfg.dlcRound n.toNat)))) := by
  change execDlcB2c n s = _
  rw [execDlcB2c, bytesToDlc_of_le _ h]
  rfl

theorem exec_dlcB2c_of_gt {n : Byte} (h : 64 < n.toNat) (s : State) :
    exec (.dlcB2c n) s = .next (s.raise .invalidArgument .code) := by
  change execDlcB2c n s = _
  rw [execDlcB2c, bytesToDlc_of_gt _ h]

theorem exec_dlcC2b_of_le {n : Byte} (h : n.toNat ≤ 15) (s : State) :
    exec (.dlcC2b n) s
      = .next (answered s .ok (.bytes (BitVec.ofNat 8 (dlcTable.getD n.toNat 0)))) := by
  have hcode : (n.setWidth 4).toNat = n.toNat := by
    rw [BitVec.toNat_setWidth, Nat.mod_eq_of_lt (by omega)]
  change execDlcC2b n s = _
  rw [execDlcC2b, if_neg (by omega), dlcBytes, hcode]
  rfl

theorem exec_dlcC2b_of_gt {n : Byte} (h : 15 < n.toNat) (s : State) :
    exec (.dlcC2b n) s = .next (s.raise .invalidArgument .bytes) :=
  if_pos h

theorem exec_frmCheck_of_good {f : Frame} {s : State} (h : GoodFrame s.cfg f) :
    exec (.frmCheck f) s = .next (answered s .ok .none) :=
  if_pos (checkFrame_iff.2 h)

theorem exec_frmCheck_of_not_good {f : Frame} {s : State} (h : ¬ GoodFrame s.cfg f) :
    exec (.frmCheck f) s = .next (answered s .invalidArgument .none) :=
  if_neg (mt checkFrame_iff.1 h)

/-! ### The statements of `42_can_dlc.md` -/

/-- Settles O22: the code is the stride rule's, by the rounding in force. -/
theorem dlcB2cFollowsStrideRule : Obligations.DlcB2cFollowsStrideRule := by
  refine fun n s => ⟨rfl, fun h => failsWith_of_raise (exec_dlcB2c_of_gt h s), fun h =>
    ⟨_, exec_dlcB2c_of_le h s, ?_⟩⟩
  rw [strideCode_toNat _ h]
  cases s.cfg.dlcRound with
  | up => exact strideCode_up _
  | down => exact strideCode_down _

/-- Settles O23: a code up to 15 keeps its value in 4 bits, so the entry is its own. -/
theorem dlcC2bReadsTable : Obligations.DlcC2bReadsTable :=
  fun _ s => ⟨rfl, fun h => failsWith_of_raise (exec_dlcC2b_of_gt h s), fun h => exec_dlcC2b_of_le h s⟩

/-- Settles O24: every law is one of the stride rule's, as the table runs in the same strides. -/
theorem dlcPairLaws : Obligations.DlcPairLaws := by
  refine ⟨fun round n _ hvalid => ?_, bytesToDlc_dlcBytes, fun round n hn m hm => ?_,
    fun n hn => ⟨_, bytesToDlc_of_le .up hn, le_dlcBytes_strideCode_up hn⟩,
    fun n hn => ⟨_, bytesToDlc_of_le .down hn, dlcBytes_strideCode_down_le hn⟩⟩
  · obtain ⟨code, rfl⟩ := validLen_iff.1 hvalid
    exact ⟨code, bytesToDlc_dlcBytes round code, rfl, bytesToDlc_dlcBytes round code⟩
  · refine ⟨_, _, bytesToDlc_of_le round hn, bytesToDlc_of_le round (hm.trans hn), ?_⟩
    rw [strideCode_toNat round hn, strideCode_toNat round (hm.trans hn)]
    exact strideCode_mono round hm

/-- Settles O25: FRM.CHECK answers by `checkFrame`, which tests the shape of R165. -/
theorem frmCheckTestsFrameShape : Obligations.FrmCheckTestsFrameShape :=
  fun f _ => ⟨congrArg (fieldBits 8 0x32 ++ ·) (frame_bits_eq f), exec_frmCheck_of_good,
    exec_frmCheck_of_not_good⟩

end Sys2Proof.Machine

/-! The statements of `43_can_index.md`: the range each buffer class has in the unified index (R181 to R183),
what the two IDX operations answer for it (R186, R187), and the laws of the family (R188). -/

namespace Sys2Proof.Machine

open Sys2Proof.Claims

/-! ### The ranges of the unified index (`43_can_index.md` R181, R182) -/

/-- The first index of a class. -/
def classBase (c : Cfg) : BufferClass → Nat
  | .mb => mbBase
  | .rxFifo => rxFifoBase c
  | .cFifo => c.cFifoBase

/-- How many indices a class has. -/
def classCount (c : Cfg) : BufferClass → Nat
  | .mb => c.nMb
  | .rxFifo => c.nRxFifo
  | .cFifo => c.nCFifo

/-- `index` lies in the range of `cls`. -/
def InClass (c : Cfg) (cls : BufferClass) (index : Nat) : Prop :=
  classBase c cls ≤ index ∧ index < classBase c cls + classCount c cls

theorem inClass_mb {c : Cfg} {index : Nat} : InClass c .mb index ↔ index < c.nMb := by
  simp [InClass, classBase, classCount, mbBase]

theorem inClass_rxFifo {c : Cfg} {index : Nat} :
    InClass c .rxFifo index ↔ c.nMb ≤ index ∧ index < c.nMb + c.nRxFifo := by
  simp [InClass, classBase, classCount, rxFifoBase, mbBase]

theorem inClass_cFifo {c : Cfg} {index : Nat} :
    InClass c .cFifo index ↔ c.cFifoBase ≤ index ∧ index < c.cFifoBase + c.nCFifo := Iff.rfl

/-- R7: the ranges of the message buffers and the RX FIFOs end where the common FIFOs begin, or before. -/
theorem rangesWf_ascending {c : Cfg} (hwf : c.rangesWf = true) : c.nMb + c.nRxFifo ≤ c.cFifoBase := by
  rw [Cfg.rangesWf, Bool.and_eq_true, decide_eq_true_iff] at hwf
  exact hwf.1

/-- Everything `Classify` can do. -/
theorem classify_cases (c : Cfg) (index : Nat) :
    (∃ cls, InClass c cls index ∧ classify c index = some (cls, index - classBase c cls))
      ∨ ((∀ cls, ¬ InClass c cls index) ∧ classify c index = none) := by
  rw [classify]
  split
  next hmb => exact .inl ⟨.mb, inClass_mb.2 hmb, rfl⟩
  next hmb =>
    split
    next hrx => exact .inl ⟨.rxFifo, hrx, rfl⟩
    next hrx =>
      split
      next hcf => exact .inl ⟨.cFifo, hcf, rfl⟩
      next hcf =>
        refine .inr ⟨fun cls => ?_, rfl⟩
        cases cls with
        | mb => exact mt inClass_mb.1 hmb
        | rxFifo => exact hrx
        | cFifo => exact hcf

/-- The local index counts from the start of the class, whether the ranges are disjoint or not. -/
theorem eq_base_add_of_classify {c : Cfg} {index k : Nat} {cls : BufferClass}
    (h : classify c index = some (cls, k)) : index = classBase c cls + k := by
  obtain ⟨cls', ⟨hbase, -⟩, heq⟩ | ⟨-, heq⟩ := classify_cases c index
  · cases heq.symm.trans h
    omega
  · cases heq.symm.trans h

/-- Where R7 keeps the ranges apart, no earlier test of `Classify` hides a later range. -/
theorem classify_of_inClass {c : Cfg} (hwf : c.rangesWf = true) {cls : BufferClass} {index : Nat}
    (h : InClass c cls index) : classify c index = some (cls, index - classBase c cls) := by
  have hascending := rangesWf_ascending hwf
  cases cls with
  | mb => exact if_pos (inClass_mb.1 h)
  | rxFifo =>
    obtain ⟨hbase, -⟩ := inClass_rxFifo.1 h
    exact (if_neg hbase.not_gt).trans (if_pos h)
  | cFifo =>
    obtain ⟨hbase, -⟩ := inClass_cFifo.1 h
    have hmb : ¬ index < c.nMb := by omega
    have hrxFifo : ¬ InClass c .rxFifo index := by rw [inClass_rxFifo]; omega
    exact (if_neg hmb).trans ((if_neg hrxFifo).trans (if_pos h))

theorem classify_eq_none {c : Cfg} {index : Nat} (h : ∀ cls, ¬ InClass c cls index) :
    classify c index = none := by
  obtain ⟨cls, hin, -⟩ | ⟨-, heq⟩ := classify_cases c index
  · exact absurd hin (h cls)
  · exact heq

/-- A write has the classes of a read but the RX FIFOs (R183). -/
theorem classifyWrite_eq_some {c : Cfg} {index k : Nat} {cls : BufferClass} :
    classifyWrite c index = some (cls, k) ↔ classify c index = some (cls, k) ∧ cls ≠ .rxFifo := by
  rw [classifyWrite]
  split
  next heq =>
    rw [heq]
    constructor
    · intro h
      cases h
    · rintro ⟨h, hcls⟩
      cases h
      exact absurd rfl hcls
  next hother =>
    refine ⟨fun h => ⟨h, ?_⟩, And.left⟩
    rintro rfl
    exact hother k h

/-- An index in no class of a write is in the RX-FIFO range or in none. -/
theorem classifyWrite_eq_none {c : Cfg} {index : Nat} (hmb : ¬ InClass c .mb index)
    (hcFifo : ¬ InClass c .cFifo index) : classifyWrite c index = none := by
  rw [classifyWrite]
  obtain ⟨cls, hin, heq⟩ | ⟨-, heq⟩ := classify_cases c index
  · cases cls with
    | mb => exact absurd hin hmb
    | rxFifo => rw [heq]
    | cFifo => exact absurd hin hcFifo
  · rw [heq]

/-! ### Hardware indices (`43_can_index.md` R184) -/

theorem hwIndex_left_inj {c : Cfg} {cls : BufferClass} {k k' channel : Nat} :
    hwIndex c cls k channel = hwIndex c cls k' channel ↔ k = k' := Nat.add_right_cancel_iff

/-- Local indices below the stride are remainders, and the channels quotients, of the hardware index. -/
theorem hwIndex_inj {c : Cfg} {cls : BufferClass} {k k' channel channel' : Nat}
    (hk : k < c.chStride.forClass cls) (hk' : k' < c.chStride.forClass cls)
    (h : hwIndex c cls k channel = hwIndex c cls k' channel') : k = k' ∧ channel = channel' := by
  have hmod := congrArg (· % c.chStride.forClass cls) h
  have hdiv := congrArg (· / c.chStride.forClass cls) h
  simp only [hwIndex, Nat.add_mul_mod_self_right, Nat.mod_eq_of_lt hk, Nat.mod_eq_of_lt hk'] at hmod
  simp only [hwIndex, Nat.add_mul_div_right _ _ (Nat.zero_lt_of_lt hk), Nat.div_eq_of_lt hk,
    Nat.div_eq_of_lt hk', Nat.zero_add] at hdiv
  exact ⟨hmod, hdiv⟩

theorem hwIndex_of_stride_zero {c : Cfg} {cls : BufferClass} (h : c.chStride.forClass cls = 0)
    (k channel : Nat) : hwIndex c cls k channel = k := by
  rw [hwIndex, h, Nat.mul_zero, Nat.add_zero]

theorem hwIndexField_toNat {draw h : Nat} (hfits : h < 2 ^ 32) : (hwIndexField draw h).toNat = h := by
  rw [hwIndexField, if_pos hfits, BitVec.toNat_ofNat, Nat.mod_eq_of_lt hfits]

/-! ### The two operations (`43_can_index.md` R186, R187) -/

theorem exec_idxClassW (channel : Byte) (index : Word32) (s : State) :
    exec (.idxClassW channel index) s = answerIndex channel (classifyWrite s.cfg index.toNat) s := rfl

theorem exec_idxClassR (channel : Byte) (index : Word32) (s : State) :
    exec (.idxClassR channel index) s = answerIndex channel (classify s.cfg index.toNat) s := rfl

theorem classCode_eq_one {cls : BufferClass} : classCode cls = 1 ↔ cls = .rxFifo := by
  cases cls <;> decide

section AnswerIndex

variable {s : State} {channel : Byte}

theorem answerIndex_of_channel_ge (h : s.cfg.nChannels ≤ channel.toNat)
    (found : Option (BufferClass × Nat)) :
    answerIndex channel found s = .refused .channelOutOfRange := if_pos h

theorem answerIndex_none (h : channel.toNat < s.cfg.nChannels) :
    answerIndex channel none s = .next (s.raise .invalidArgument .index) := if_neg h.not_ge

theorem answerIndex_some (h : channel.toNat < s.cfg.nChannels) (cls : BufferClass) (k : Nat) :
    answerIndex channel (some (cls, k)) s
      = .next (answered s .ok (indexResult s channel cls k)) := if_neg h.not_ge

/-- An `OK` answer names a class and a local index that were found. -/
theorem answerIndex_eq_ok {found : Option (BufferClass × Nat)} {r : Result} :
    answerIndex channel found s = .next (answered s .ok r)
      ↔ channel.toNat < s.cfg.nChannels
        ∧ ∃ cls k, found = some (cls, k) ∧ r = indexResult s channel cls k := by
  constructor
  · intro h
    obtain hge | hlt := le_or_gt s.cfg.nChannels channel.toNat
    · rw [answerIndex_of_channel_ge hge] at h
      cases h
    refine ⟨hlt, ?_⟩
    cases found with
    | none =>
      rw [answerIndex_none hlt] at h
      injection h with hstate
      cases congrArg State.rsp hstate
    | some p =>
      rw [answerIndex_some hlt] at h
      injection h with hstate
      exact ⟨p.1, p.2, rfl, (result_eq_of_answered_eq hstate).symm⟩
  · rintro ⟨hlt, cls, k, rfl, rfl⟩
    exact answerIndex_some hlt cls k

/-- The answer for an index found in a class, field by field; `h` is fixed where it fits. -/
theorem answerIndex_fields (hchannel : channel.toNat < s.cfg.nChannels) {cls : BufferClass}
    {index : Word32} {found : Option (BufferClass × Nat)}
    (hfound : found = some (cls, index.toNat - classBase s.cfg cls)) :
    ∃ k h : Word32,
      answerIndex channel found s = .next (answered s .ok (.index (classCode cls) k h))
        ∧ k.toNat = index.toNat - classBase s.cfg cls
        ∧ (k.toNat + channel.toNat * s.cfg.chStride.forClass cls < 2 ^ 32 →
          h.toNat = k.toNat + channel.toNat * s.cfg.chStride.forClass cls) := by
  have hk : (BitVec.ofNat 32 (index.toNat - classBase s.cfg cls)).toNat
      = index.toNat - classBase s.cfg cls := by
    rw [BitVec.toNat_ofNat, Nat.mod_eq_of_lt ((Nat.sub_le _ _).trans_lt index.isLt)]
  refine ⟨_, _, hfound ▸ answerIndex_some hchannel cls _, hk, fun hfits => ?_⟩
  rw [hk] at hfits ⊢
  exact hwIndexField_toNat hfits

/-- The message-buffer class starts at 0, so its local index is the index itself. -/
theorem answerIndex_fields_mb (hchannel : channel.toNat < s.cfg.nChannels) {index : Word32}
    {found : Option (BufferClass × Nat)} (hfound : found = some (.mb, index.toNat)) :
    ∃ h : Word32, answerIndex channel found s = .next (answered s .ok (.index 0 index h))
      ∧ (index.toNat + channel.toNat * s.cfg.chStride.mb < 2 ^ 32 →
        h.toNat = index.toNat + channel.toNat * s.cfg.chStride.mb) := by
  obtain ⟨k, h, hanswer, hk, hfits⟩ := answerIndex_fields hchannel (cls := .mb) hfound
  obtain rfl : k = index := BitVec.eq_of_toNat_eq hk
  exact ⟨h, hanswer, hfits⟩

end AnswerIndex

/-! ### The statements of `43_can_index.md` -/

/-- IDX.CLASSW succeeds exactly when IDX.CLASSR does with another class than the RX FIFOs. -/
theorem exec_idxClassW_eq_ok {channel : Byte} {index : Word32} {s : State} {cls : BitVec 2}
    {k h : Word32} :
    exec (.idxClassW channel index) s = .next (answered s .ok (.index cls k h))
      ↔ exec (.idxClassR channel index) s = .next (answered s .ok (.index cls k h)) ∧ cls ≠ 1 := by
  rw [exec_idxClassW, exec_idxClassR, answerIndex_eq_ok, answerIndex_eq_ok]
  constructor
  · rintro ⟨hchannel, cls', k', hfound, hresult⟩
    obtain ⟨hread, hclass⟩ := classifyWrite_eq_some.1 hfound
    refine ⟨⟨hchannel, cls', k', hread, hresult⟩, ?_⟩
    cases hresult
    exact mt classCode_eq_one.1 hclass
  · rintro ⟨⟨hchannel, cls', k', hread, hresult⟩, hcode⟩
    refine ⟨hchannel, cls', k', classifyWrite_eq_some.2 ⟨hread, ?_⟩, hresult⟩
    cases hresult
    exact mt classCode_eq_one.2 hcode

/-- Settles O28: the write drops one class of the read; in a class the index is the base plus the local
index, and the hardware index is a quotient and a remainder by the stride. -/
theorem indexClassificationLaws : Obligations.IndexClassificationLaws := by
  refine ⟨fun _ _ _ _ _ _ => exec_idxClassW_eq_ok, fun c i j cls k k' ch hi hj heq => ?_,
    fun c k k' ch ch' hstride hk hk' => hwIndex_inj (hk.trans_le hstride) (hk'.trans_le hstride),
    fun c cls k ch ch' hzero => ?_⟩
  · rw [eq_base_add_of_classify hi, eq_base_add_of_classify hj, hwIndex_left_inj.1 heq]
  · rw [hwIndex_of_stride_zero hzero, hwIndex_of_stride_zero hzero]

/-- Settles O26: an index in the RX-FIFO range or in none is not found for a write. -/
theorem idxClassWClassifiesForWrite : Obligations.IdxClassWClassifiesForWrite := by
  refine fun ch index s hwf => ⟨rfl, fun h => answerIndex_of_channel_ge h _, fun hch =>
    ⟨fun hmb => ?_, fun hcFifo => ?_, fun hout => failsWith_of_raise ?_⟩⟩
  · exact answerIndex_fields_mb hch
      (classifyWrite_eq_some.2 ⟨classify_of_inClass hwf (inClass_mb.2 hmb), by decide⟩)
  · exact answerIndex_fields hch (cls := .cFifo)
      (classifyWrite_eq_some.2 ⟨classify_of_inClass hwf (inClass_cFifo.2 hcFifo), by decide⟩)
  · rw [exec_idxClassW, classifyWrite_eq_none, answerIndex_none hch]
    · rw [inClass_mb]
      have hascending := rangesWf_ascending hwf
      omega
    · rw [inClass_cFifo]
      omega

/-- Settles O27: each range answers with its class, and R7 leaves the rest to none of them. -/
theorem idxClassRClassifiesForRead : Obligations.IdxClassRClassifiesForRead := by
  refine fun ch index s hwf => ⟨rfl, fun h => answerIndex_of_channel_ge h _, fun hch =>
    ⟨fun hmb => ?_, fun hrxFifo => ?_, fun hcFifo => ?_, fun hout => failsWith_of_raise ?_⟩⟩
  · exact answerIndex_fields_mb hch (classify_of_inClass hwf (inClass_mb.2 hmb))
  · have hbase : classBase s.cfg .rxFifo = s.cfg.nMb := Nat.zero_add _
    exact hbase ▸ answerIndex_fields hch (classify_of_inClass hwf (inClass_rxFifo.2 hrxFifo))
  · exact answerIndex_fields hch (classify_of_inClass hwf (inClass_cFifo.2 hcFifo))
  · rw [exec_idxClassR, classify_eq_none, answerIndex_none hch]
    have hascending := rangesWf_ascending hwf
    intro cls
    cases cls with
    | mb => rw [inClass_mb]; omega
    | rxFifo => rw [inClass_rxFifo]; omega
    | cFifo => rw [inClass_cFifo]; omega

end Sys2Proof.Machine

/-! The codec's half of `44_can_frame.md`: the image that packing a frame gives (R201), the frame that an image
holds (R202), that the second undoes the first (R206), and the two operations FRM.ENC and FRM.DEC (R205,
R208). -/

namespace Sys2Proof.Machine

open Sys2Proof.Claims

/-! ### Packing (`44_can_frame.md` R201, R204) -/

theorem idInRange_iff {c : Cfg} {id : Word32} : idInRange c id = true ↔ id.toNat < 2 ^ c.idW.val :=
  decide_eq_true_iff

theorem bitAt_eq_ite (b : Bool) (pos : Fin 32) :
    bitAt b pos = if b = true then 1#32 <<< pos.val else 0 := by
  cases b with
  | false => exact BitVec.zero_shiftLeft _
  | true => rfl

theorem encodeData_getElem (len : Nat) (new old : Vector Byte 64) (i : Fin 64) :
    (encodeData len new old)[i] = if i.val < len then new[i] else old[i] := by
  simp [encodeData]

theorem encodeImage_of_gt {c : Cfg} {f : Frame} (h : 64 < f.len.toNat) (old : Image) :
    encodeImage c f old = none := by
  rw [encodeImage, bytesToDlc_of_gt _ h, Option.map_none]

/-- Packing succeeds exactly when the length has a DLC. -/
theorem encodeImage_eq_some {c : Cfg} {f : Frame} {old img : Image} :
    encodeImage c f old = some img
      ↔ ∃ code, bytesToDlc c.dlcRound f.len.toNat = some code
        ∧ img = ⟨encodeId c f, encodePtr c code, encodeFdc c f,
          encodeData f.len.toNat f.data old.data⟩ := by
  simp only [encodeImage, Option.map_eq_some_iff, @eq_comm _ _ img]

/-- The packed words and bytes are those of R201, field by field. -/
theorem isImageOf_encode (c : Cfg) (f : Frame) (code : BitVec 4) (old : Image) :
    IsImageOf c f code old ⟨encodeId c f, encodePtr c code, encodeFdc c f,
      encodeData f.len.toNat f.data old.data⟩ := by
  refine ⟨?_, rfl, ?_, encodeData_getElem _ _ _⟩
  · simp only [encodeId, idBits, bitAt_eq_ite, beq_iff_eq]
  · simp only [encodeFdc, bitAt_eq_ite, bne_iff_ne]

theorem exists_encodeImage {c : Cfg} {f : Frame} (h : f.len.toNat ≤ 64) (old : Image) :
    ∃ code img, bytesToDlc c.dlcRound f.len.toNat = some code ∧ IsImageOf c f code old img
      ∧ encodeImage c f old = some img :=
  ⟨_, _, bytesToDlc_of_le _ h, isImageOf_encode c f _ old,
    encodeImage_eq_some.2 ⟨_, bytesToDlc_of_le _ h, rfl⟩⟩

/-! ### Unpacking (`44_can_frame.md` R202) -/

theorem decodeData_getElem {draw len : Nat} (data : Vector Byte 64) {i : Fin 64} (h : i.val < len) :
    (decodeData draw len data)[i] = data[i] := by
  simp [decodeData, h]

theorem decodeFrame_data_getElem {c : Cfg} {m : Image} {i : Fin 64} (h : i.val < decodeLen c m)
    (draw : Nat) : (decodeFrame c draw m).data[i] = m.data[i] := decodeData_getElem m.data h

/-- No length of the table is cut by its 8-bit field. -/
theorem decodeFrame_len_toNat (c : Cfg) (draw : Nat) (m : Image) :
    (decodeFrame c draw m).len.toNat = decodeLen c m := by
  have hle : decodeLen c m ≤ 64 := dlcBytes_le _
  rw [decodeFrame, BitVec.toNat_ofNat, Nat.mod_eq_of_lt (by omega)]

theorem decodeFrame_type_eq_remote {c : Cfg} {draw : Nat} {m : Image} :
    (decodeFrame c draw m).type = .remote ↔ m.id.getLsbD c.rtrBit.val = true := by
  rw [decodeFrame]
  split <;> simp_all

theorem decodeFrame_idMode_eq_extended {c : Cfg} {draw : Nat} {m : Image} :
    (decodeFrame c draw m).idMode = .extended ↔ m.id.getLsbD c.ideBit.val = true := by
  rw [decodeFrame]
  split <;> simp_all

theorem isFrameOf_decodeFrame (c : Cfg) (draw : Nat) (m : Image) :
    IsFrameOf c m (decodeFrame c draw m) := by
  refine ⟨rfl, decodeFrame_type_eq_remote, decodeFrame_idMode_eq_extended, rfl,
    decodeFrame_len_toNat c draw m, fun i hi => ?_⟩
  rw [decodeFrame_len_toNat] at hi
  exact decodeFrame_data_getElem hi draw

/-! ### The bit positions of an image (`30_encoding.md` R92 to R94) -/

/-- An option value is one bit of three. -/
def SingleOption (opt : BitVec 3) : Prop := ∀ o : BitVec 3, o &&& opt ≠ 0 → o &&& opt = opt

/-- Three disjoint nonzero values that fill three bits are single bits. -/
theorem singleOption_of_partition :
    ∀ a b d : BitVec 3, a ||| b ||| d = 7#3 → a &&& b = 0 → a &&& d = 0 → b &&& d = 0 →
      a ≠ 0 → b ≠ 0 → d ≠ 0 → SingleOption a ∧ SingleOption b ∧ SingleOption d := by
  unfold SingleOption
  decide

/-- What a layout without overlap gives, word by word. -/
theorem layoutWf_iff {c : Cfg} :
    c.layoutWf = true
      ↔ (c.idW.val ≤ c.rtrBit.val ∧ c.idW.val ≤ c.ideBit.val ∧ c.rtrBit ≠ c.ideBit)
        ∧ (c.esiBit ≠ c.brsBit ∧ c.esiBit ≠ c.fdfBit ∧ c.brsBit ≠ c.fdfBit)
        ∧ c.optEsi ||| c.optBrs ||| c.optFd = 7#3
        ∧ c.optEsi &&& c.optBrs = 0 ∧ c.optEsi &&& c.optFd = 0 ∧ c.optBrs &&& c.optFd = 0
        ∧ c.optEsi ≠ 0 ∧ c.optBrs ≠ 0 ∧ c.optFd ≠ 0 := by
  simp only [Cfg.layoutWf, Bool.and_eq_true, decide_eq_true_iff, bne_iff_ne, and_assoc]

theorem getLsbD_bitAt (b : Bool) (pos : Fin 32) (i : Nat) :
    (bitAt b pos).getLsbD i = (b && decide (pos.val = i)) := by
  rw [bitAt_eq_ite]
  cases b with
  | false => exact BitVec.getLsbD_zero
  | true => rw [if_pos rfl, ← BitVec.twoPow_eq, BitVec.getLsbD_twoPow, decide_eq_true pos.isLt]

theorem getLsbD_idBits (c : Cfg) (v : Word32) (i : Nat) :
    (idBits c v).getLsbD i = (decide (i < c.idW.val) && v.getLsbD i) := by
  have hidW := c.idW.isLt
  simp only [idBits, BitVec.getLsbD_setWidth]
  by_cases hi : i < c.idW.val
  · rw [decide_eq_true (by omega : i < 32), Bool.true_and]
  · simp [hi]

/-- An identifier below `2^ID_W` has no bit at or above `ID_W`, where RTR and IDE are. -/
theorem getLsbD_id_of_ge {c : Cfg} {id : Word32} (hid : id.toNat < 2 ^ c.idW.val) {i : Nat}
    (hi : c.idW.val ≤ i) : id.getLsbD i = false := by
  rw [← BitVec.testBit_toNat]
  exact Nat.testBit_lt_two_pow (hid.trans_le (Nat.pow_le_pow_right two_pos hi))

theorem idBits_of_lt {c : Cfg} {id : Word32} (hid : id.toNat < 2 ^ c.idW.val) : idBits c id = id := by
  apply BitVec.eq_of_getLsbD_eq
  intro i _
  rw [getLsbD_idBits]
  by_cases hi : i < c.idW.val
  · rw [decide_eq_true hi, Bool.true_and]
  · rw [getLsbD_id_of_ge hid (Nat.le_of_not_lt hi), Bool.and_false]

/-- The bits of the packed ID word. -/
theorem getLsbD_encodeId {c : Cfg} {f : Frame} (hid : f.id.toNat < 2 ^ c.idW.val) (i : Nat) :
    (encodeId c f).getLsbD i = (f.id.getLsbD i || (f.type == .remote && decide (c.rtrBit.val = i))
      || (f.idMode == .extended && decide (c.ideBit.val = i))) := by
  simp only [encodeId, BitVec.getLsbD_or, idBits_of_lt hid, getLsbD_bitAt]

section RoundTrip

variable {c : Cfg} {f : Frame}

theorem idBits_encodeId (hlayout : c.layoutWf = true) (hid : f.id.toNat < 2 ^ c.idW.val) :
    idBits c (encodeId c f) = f.id := by
  obtain ⟨⟨hrtr, hide, -⟩, -⟩ := layoutWf_iff.1 hlayout
  apply BitVec.eq_of_getLsbD_eq
  intro i _
  rw [getLsbD_idBits, getLsbD_encodeId hid]
  by_cases hi : i < c.idW.val
  · simp [hi, (hi.trans_le hrtr).ne', (hi.trans_le hide).ne']
  · simp [hi, getLsbD_id_of_ge hid (Nat.le_of_not_lt hi)]

theorem getLsbD_encodeId_rtr (hlayout : c.layoutWf = true) (hid : f.id.toNat < 2 ^ c.idW.val) :
    (encodeId c f).getLsbD c.rtrBit.val = (f.type == .remote) := by
  obtain ⟨⟨hrtr, -, hne⟩, -⟩ := layoutWf_iff.1 hlayout
  rw [getLsbD_encodeId hid, getLsbD_id_of_ge hid hrtr]
  simp [Fin.val_ne_of_ne hne.symm]

theorem getLsbD_encodeId_ide (hlayout : c.layoutWf = true) (hid : f.id.toNat < 2 ^ c.idW.val) :
    (encodeId c f).getLsbD c.ideBit.val = (f.idMode == .extended) := by
  obtain ⟨⟨-, hide, hne⟩, -⟩ := layoutWf_iff.1 hlayout
  rw [getLsbD_encodeId hid, getLsbD_id_of_ge hid hide]
  simp [Fin.val_ne_of_ne hne]

/-- The bits of the packed FDC word. -/
theorem getLsbD_encodeFdc (c : Cfg) (f : Frame) (i : Nat) :
    (encodeFdc c f).getLsbD i = ((f.options &&& c.optEsi != 0 && decide (c.esiBit.val = i))
      || (f.options &&& c.optBrs != 0 && decide (c.brsBit.val = i))
      || (f.options &&& c.optFd != 0 && decide (c.fdfBit.val = i))) := by
  simp only [encodeFdc, BitVec.getLsbD_or, getLsbD_bitAt]

/-- A packed option bit that is read back gives the option again. -/
theorem SingleOption.read_back {opt : BitVec 3} (h : SingleOption opt) (o : BitVec 3) :
    (if (o &&& opt != 0) = true then opt else 0) = o &&& opt := by
  split
  next hset => exact (h o (bne_iff_ne.1 hset)).symm
  next hclear => exact (not_not.1 (mt bne_iff_ne.2 hclear)).symm

theorem decodeOptions_encodeFdc (hlayout : c.layoutWf = true) {m : Image}
    (hfdc : m.fdc = encodeFdc c f) : decodeOptions c m = f.options := by
  obtain ⟨-, ⟨heb, hef, hbf⟩, hfull, hEB, hEF, hBF, hE, hB, hF⟩ := layoutWf_iff.1 hlayout
  obtain ⟨hesi, hbrs, hfd⟩ := singleOption_of_partition _ _ _ hfull hEB hEF hBF hE hB hF
  have hesiBit : m.fdc.getLsbD c.esiBit.val = (f.options &&& c.optEsi != 0) := by
    rw [hfdc, getLsbD_encodeFdc]
    simp [Fin.val_ne_of_ne heb.symm, Fin.val_ne_of_ne hef.symm]
  have hbrsBit : m.fdc.getLsbD c.brsBit.val = (f.options &&& c.optBrs != 0) := by
    rw [hfdc, getLsbD_encodeFdc]
    simp [Fin.val_ne_of_ne heb, Fin.val_ne_of_ne hbf.symm]
  have hfdfBit : m.fdc.getLsbD c.fdfBit.val = (f.options &&& c.optFd != 0) := by
    rw [hfdc, getLsbD_encodeFdc]
    simp [Fin.val_ne_of_ne hef, Fin.val_ne_of_ne hbf]
  calc decodeOptions c m
      = f.options &&& c.optEsi ||| f.options &&& c.optBrs ||| f.options &&& c.optFd := by
        rw [decodeOptions, hesiBit, hbrsBit, hfdfBit, hesi.read_back, hbrs.read_back, hfd.read_back]
    _ = f.options &&& (c.optEsi ||| c.optBrs ||| c.optFd) := by
        rw [BitVec.and_or_distrib_left, BitVec.and_or_distrib_left]
    _ = f.options := by rw [hfull]; exact BitVec.and_allOnes

theorem extractLsb'_encodePtr (c : Cfg) (code : BitVec 4) :
    (encodePtr c code).extractLsb' c.dlcLsb.val 4 = code := by
  have hlsb := c.dlcLsb.isLt
  apply BitVec.eq_of_getLsbD_eq
  intro i hi
  have hfits : c.dlcLsb.val + i < 32 := by omega
  simp [encodePtr, hi, hfits]

theorem decodeLen_encodePtr {code : BitVec 4} {m : Image} (hptr : m.ptr = encodePtr c code) :
    decodeLen c m = dlcBytes code := by
  rw [decodeLen, hptr, extractLsb'_encodePtr]

/-- Where the length has a DLC of its own, unpacking undoes packing. -/
theorem sameFrame_decodeFrame (hlayout : c.layoutWf = true) (hid : f.id.toNat < 2 ^ c.idW.val)
    {code : BitVec 4} (hexact : dlcBytes code = f.len.toNat) {old img : Image}
    (himg : encodeImage c f old = some img) (draw : Nat) : SameFrame f (decodeFrame c draw img) := by
  obtain ⟨code', hcode', rfl⟩ := encodeImage_eq_some.1 himg
  obtain rfl : code = code' := by
    rw [← hexact, bytesToDlc_dlcBytes] at hcode'
    exact Option.some.inj hcode'
  have hlen : ∀ {id fdc data}, decodeLen c ⟨id, encodePtr c code, fdc, data⟩ = f.len.toNat :=
    (decodeLen_encodePtr rfl).trans hexact
  refine ⟨(idBits_encodeId hlayout hid).symm, ?_, ?_, (decodeOptions_encodeFdc hlayout rfl).symm,
    BitVec.eq_of_toNat_eq ?_, fun i hi => ?_⟩
  · simp only [decodeFrame, getLsbD_encodeId_ide hlayout hid]
    cases f.idMode <;> rfl
  · simp only [decodeFrame, getLsbD_encodeId_rtr hlayout hid]
    cases f.type <;> rfl
  · rw [decodeFrame_len_toNat, hlen]
  · rw [decodeFrame_data_getElem (by rw [hlen]; exact hi), encodeData_getElem, if_pos hi]

end RoundTrip

/-! ### Frames of a valid shape (`42_can_dlc.md` R165) -/

theorem validLen_of_le_eight : ∀ n ≤ 8, validLen n = true := by decide

theorem goodFrame_of_fd {c : Cfg} {f : Frame} (hfd : f.options &&& c.optFd ≠ 0) :
    GoodFrame c f ↔ validLen f.len.toNat = true := by
  rw [← checkFrame_iff, checkFrame, if_neg hfd]

theorem len_le_eight_of_classic {c : Cfg} {f : Frame} (h : GoodFrame c f)
    (hclassic : f.options &&& c.optFd = 0) : f.len.toNat ≤ 8 := by
  rw [GoodFrame, if_pos hclassic] at h
  exact h.1

/-- The length of a frame of a valid shape has a DLC of its own. -/
theorem exists_code_of_goodFrame {c : Cfg} {f : Frame} (h : GoodFrame c f) :
    ∃ code, dlcBytes code = f.len.toNat := by
  rw [← validLen_iff]
  by_cases hfd : f.options &&& c.optFd = 0
  · exact validLen_of_le_eight _ (len_le_eight_of_classic h hfd)
  · exact (goodFrame_of_fd hfd).1 h

theorem len_le_of_goodFrame {c : Cfg} {f : Frame} (h : GoodFrame c f) : f.len.toNat ≤ 64 := by
  obtain ⟨code, hcode⟩ := exists_code_of_goodFrame h
  exact hcode ▸ dlcBytes_le code

/-! ### The two operations (`44_can_frame.md` R205, R208) -/

theorem exec_frmEnc_of_id_ge {f : Frame} {s : State} (hid : 2 ^ s.cfg.idW.val ≤ f.id.toNat) :
    exec (.frmEnc f) s = .refused .idOutOfRange :=
  if_neg (mt idInRange_iff.1 hid.not_gt)

theorem exec_frmEnc_of_no_image {f : Frame} {s : State} (hid : f.id.toNat < 2 ^ s.cfg.idW.val)
    (himg : encodeImage s.cfg f zeroImage = none) :
    exec (.frmEnc f) s = .next (s.raise .invalidArgument .image) := by
  change execFrmEnc f s = _
  rw [execFrmEnc, if_pos (idInRange_iff.2 hid), himg]

theorem exec_frmEnc_of_image {f : Frame} {s : State} {img : Image}
    (hid : f.id.toNat < 2 ^ s.cfg.idW.val) (himg : encodeImage s.cfg f zeroImage = some img) :
    exec (.frmEnc f) s = .next (answered s .ok (.image img)) := by
  change execFrmEnc f s = _
  rw [execFrmEnc, if_pos (idInRange_iff.2 hid), himg]
  rfl

/-! ### The statements of `44_can_frame.md` on the codec -/

/-- Settles O31: for a valid shape the length is its DLC's own; a length outside the table is no DLC's. -/
theorem frameRoundTrip : Obligations.FrameRoundTrip := by
  refine fun c f old draw hlayout hid => ⟨fun hgood => ?_, fun hfd hle hbad => ?_⟩
  · obtain ⟨code, hexact⟩ := exists_code_of_goodFrame hgood
    obtain ⟨-, img, -, -, himg⟩ := exists_encodeImage (c := c) (len_le_of_goodFrame hgood) old
    have hsame := sameFrame_decodeFrame hlayout hid hexact himg draw
    have ⟨_, _, _, _, hlen, _⟩ := hsame
    exact ⟨img, himg, hsame, fun hclassic => hlen ▸ len_le_eight_of_classic hgood hclassic⟩
  · obtain ⟨code, img, hcode, ⟨-, hptr, -⟩, himg⟩ := exists_encodeImage (c := c) hle old
    have hlen : (decodeFrame c draw img).len.toNat = dlcBytes code := by
      rw [decodeFrame_len_toNat, decodeLen_encodePtr hptr]
    refine ⟨img, code, himg, hcode, hlen, fun heq => hbad ?_⟩
    rw [goodFrame_of_fd hfd, validLen_iff]
    exact ⟨code, by rw [← hlen, heq]⟩

/-- Settles O29: the identifier is tested first, then the length; any other frame has an image. -/
theorem frmEncPacksFrame : Obligations.FrmEncPacksFrame := by
  refine fun f s => ⟨congrArg (fieldBits 8 0x35 ++ ·) (frame_bits_eq f), exec_frmEnc_of_id_ge,
    fun hid hgt => failsWith_of_raise (exec_frmEnc_of_no_image hid (encodeImage_of_gt hgt _)),
    fun hid hle => ?_⟩
  obtain ⟨code, img, hcode, hisImage, himg⟩ := exists_encodeImage (c := s.cfg) hle zeroImage
  exact ⟨code, img, hcode, hisImage, exec_frmEnc_of_image hid himg⟩

/-- Settles O30: the answer is the frame that `decodeFrame` unpacks, whatever the image. -/
theorem frmDecUnpacksImage : Obligations.FrmDecUnpacksImage :=
  fun img s => ⟨rfl, decodeFrame s.cfg s.draws img, isFrameOf_decodeFrame _ _ img, rfl⟩

end Sys2Proof.Machine

/-! The operations' half of `44_can_frame.md`: what CAN.WRITE and CAN.READ do for an index of each range (R212 to
R216, R220 to R222), that a failing one changes nothing (R214), and the loop-back run of `90_conflicts.md` C4. -/

namespace Sys2Proof.Machine

open Sys2Proof.Claims

/-! ### Placing a frame (`44_can_frame.md` R212, R213) -/

section PlaceFrame

variable {f : Frame} {old : Image} {place : Image → Progress} {s : State}

theorem placeFrame_of_not_good (h : ¬ GoodFrame s.cfg f) :
    placeFrame f old place s = .raised .invalidArgument s :=
  if_neg (mt checkFrame_iff.1 h)

theorem placeFrame_of_id_ge (hgood : GoodFrame s.cfg f) (hid : 2 ^ s.cfg.idW.val ≤ f.id.toNat) :
    placeFrame f old place s = .refused .idOutOfRange :=
  (if_pos (checkFrame_iff.2 hgood)).trans (if_neg (mt idInRange_iff.1 hid.not_gt))

/-- An admitted frame is packed, and its image placed. -/
theorem placeFrame_of_admitted (hgood : GoodFrame s.cfg f) (hid : f.id.toNat < 2 ^ s.cfg.idW.val)
    {img : Image} (himg : encodeImage s.cfg f old = some img) :
    placeFrame f old place s = place img := by
  rw [placeFrame, if_pos (checkFrame_iff.2 hgood), if_pos (idInRange_iff.2 hid), himg]

theorem placeFrame_eq_ok {t : State} :
    placeFrame f old place s = .ok t
      ↔ GoodFrame s.cfg f ∧ f.id.toNat < 2 ^ s.cfg.idW.val
        ∧ ∃ img, encodeImage s.cfg f old = some img ∧ place img = .ok t := by
  rw [← checkFrame_iff, ← idInRange_iff]
  rcases placeFrame_cases f old place s with
    ⟨hcheck, h⟩ | ⟨hcheck, hid, h⟩ | ⟨hcheck, hid, himg, h⟩ | ⟨img, hcheck, hid, himg, h⟩
  · simp [h, hcheck]
  · simp [h, hid]
  · simp [h, himg]
  · simp [h, hcheck, hid, himg]

end PlaceFrame

/-! ### CAN.WRITE, by the range of its index (`44_can_frame.md` R212) -/

theorem classify_of_lt_nMb {c : Cfg} {index : Nat} (h : index < c.nMb) :
    classify c index = some (.mb, index) := if_pos h

theorem classify_of_rxFifo {c : Cfg} (hwf : c.rangesWf = true) {index : Nat}
    (h : c.nMb ≤ index ∧ index < c.nMb + c.nRxFifo) :
    classify c index = some (.rxFifo, index - c.nMb) := by
  rw [classify_of_inClass hwf (inClass_rxFifo.2 h), classBase, rxFifoBase, mbBase, Nat.zero_add]

theorem classify_of_cFifo {c : Cfg} (hwf : c.rangesWf = true) {index : Nat}
    (h : c.cFifoBase ≤ index ∧ index < c.cFifoBase + c.nCFifo) :
    classify c index = some (.cFifo, index - c.cFifoBase) :=
  classify_of_inClass hwf (inClass_cFifo.2 h)

section CanWrite

variable {ch : Byte} {index : Word32} {f : Frame} {s : State}

theorem writeStep_of_channel_ge (hch : s.cfg.nChannels ≤ ch.toNat) :
    writeStep ch index f s = .refused .channelOutOfRange := if_pos hch

theorem writeStep_mb (hch : ch.toNat < s.cfg.nChannels) (hindex : index.toNat < s.cfg.nMb) :
    writeStep ch index f s = writeMb (index.toNat + ch.toNat * s.cfg.chStride.mb) f s := by
  rw [writeStep, if_neg hch.not_ge, classify_of_lt_nMb hindex]
  rfl

theorem writeStep_cFifo (hwf : s.cfg.rangesWf = true) (hch : ch.toNat < s.cfg.nChannels)
    (hindex : s.cfg.cFifoBase ≤ index.toNat ∧ index.toNat < s.cfg.cFifoBase + s.cfg.nCFifo) :
    writeStep ch index f s
      = writeCFifo (index.toNat - s.cfg.cFifoBase + ch.toNat * s.cfg.chStride.cFifo) f s := by
  rw [writeStep, if_neg hch.not_ge, classify_of_cFifo hwf hindex]
  rfl

/-- A write has no RX-FIFO class: that range is as good as none (`43_can_index.md` R183). -/
theorem writeStep_of_not_found (hch : ch.toNat < s.cfg.nChannels)
    (hindex : classifyWrite s.cfg index.toNat = none) :
    writeStep ch index f s = .raised .invalidArgument s := by
  rw [writeStep, if_neg hch.not_ge]
  split
  next => rfl
  next => rfl
  next hclass =>
    rw [classifyWrite_eq_some.2 ⟨hclass, by decide⟩] at hindex
    cases hindex
  next hclass =>
    rw [classifyWrite_eq_some.2 ⟨hclass, by decide⟩] at hindex
    cases hindex

theorem writeMb_of_busy {h : Nat} {b : TxBuffer} (hb : s.txmb[h]? = some b) (hbusy : b.busy = true) :
    writeMb h f s = .raised .canTransmitNotReady s := by
  rw [writeMb, hb]
  exact if_pos hbusy

theorem writeMb_of_idle {h : Nat} {b : TxBuffer} (hb : s.txmb[h]? = some b) (hidle : b.busy = false) :
    writeMb h f s = placeFrame f b.img (fun img => .ok (s.setTxmb h (requestTransmit img))) s := by
  rw [writeMb, hb]
  exact if_neg (Bool.eq_false_iff.1 hidle)

/-- A message buffer that a write went to was idle, and holds the packed frame. -/
theorem writeMb_eq_ok {h : Nat} {t : State} :
    writeMb h f s = .ok t
      ↔ ∃ b img, s.txmb[h]? = some b ∧ b.busy = false ∧ GoodFrame s.cfg f
        ∧ f.id.toNat < 2 ^ s.cfg.idW.val ∧ encodeImage s.cfg f b.img = some img
        ∧ t = s.setTxmb h (requestTransmit img) := by
  constructor
  · intro hok
    cases hb : s.txmb[h]? with
    | none =>
      rw [writeMb, hb] at hok
      cases hok
    | some b =>
      cases hbusy : b.busy with
      | true =>
        rw [writeMb_of_busy hb hbusy] at hok
        cases hok
      | false =>
        rw [writeMb_of_idle hb hbusy, placeFrame_eq_ok] at hok
        obtain ⟨hgood, hid, img, himg, hset⟩ := hok
        cases hset
        exact ⟨b, img, rfl, hbusy, hgood, hid, himg, rfl⟩
  · rintro ⟨b, img, hb, hidle, hgood, hid, himg, rfl⟩
    rw [writeMb_of_idle hb hidle, placeFrame_of_admitted hgood hid himg]

theorem queueFull_eq_true {c : Cfg} {q : List Image} :
    queueFull c q = true ↔ ∃ d, c.fifoDepth = some d ∧ d ≤ q.length := by
  rw [queueFull]
  cases c.fifoDepth <;> simp

theorem appendCFifo_of_full {h : Nat} {img : Image} {q : CommonFifo} (hq : s.cfifo[h]? = some q)
    (hfull : queueFull s.cfg q.txq = true) : appendCFifo h img s = .refused .fifoFull := by
  rw [appendCFifo, hq]
  exact if_pos hfull

theorem appendCFifo_of_room {h : Nat} {img : Image} {q : CommonFifo} (hq : s.cfifo[h]? = some q)
    (hroom : queueFull s.cfg q.txq = false) :
    appendCFifo h img s = .ok (s.setCFifo h { q with txq := q.txq ++ [img] }) := by
  rw [appendCFifo, hq]
  exact if_neg (Bool.eq_false_iff.1 hroom)

end CanWrite

/-! ### CAN.READ, by the range of its index (`44_can_frame.md` R220) -/

section CanRead

variable {ch : Byte} {index : Word32} {s : State}

theorem exec_canRead_of_channel_ge (hch : s.cfg.nChannels ≤ ch.toNat) :
    exec (.canRead ch index) s = .refused .channelOutOfRange := if_pos hch

theorem exec_canRead_of_not_found (hch : ch.toNat < s.cfg.nChannels)
    (hindex : classify s.cfg index.toNat = none) :
    exec (.canRead ch index) s = .next (s.raise .invalidArgument .frame) := by
  change execCanRead ch index s = _
  rw [execCanRead, if_neg hch.not_ge, hindex]

theorem exec_canRead_mb (hch : ch.toNat < s.cfg.nChannels) (hindex : index.toNat < s.cfg.nMb) :
    exec (.canRead ch index) s = readMb (index.toNat + ch.toNat * s.cfg.chStride.mb) s := by
  change execCanRead ch index s = _
  rw [execCanRead, if_neg hch.not_ge, classify_of_lt_nMb hindex]
  rfl

theorem exec_canRead_rxFifo (hwf : s.cfg.rangesWf = true) (hch : ch.toNat < s.cfg.nChannels)
    (hindex : s.cfg.nMb ≤ index.toNat ∧ index.toNat < s.cfg.nMb + s.cfg.nRxFifo) :
    exec (.canRead ch index) s
      = readRxFifo (index.toNat - s.cfg.nMb + ch.toNat * s.cfg.chStride.rxFifo) s := by
  change execCanRead ch index s = _
  rw [execCanRead, if_neg hch.not_ge, classify_of_rxFifo hwf hindex]
  rfl

theorem exec_canRead_cFifo (hwf : s.cfg.rangesWf = true) (hch : ch.toNat < s.cfg.nChannels)
    (hindex : s.cfg.cFifoBase ≤ index.toNat ∧ index.toNat < s.cfg.cFifoBase + s.cfg.nCFifo) :
    exec (.canRead ch index) s
      = readCFifo (index.toNat - s.cfg.cFifoBase + ch.toNat * s.cfg.chStride.cFifo) s := by
  change execCanRead ch index s = _
  rw [execCanRead, if_neg hch.not_ge, classify_of_cFifo hwf hindex]
  rfl

theorem readMb_of_new {h : Nat} {b : RxBuffer} (hb : s.rxmb[h]? = some b) (hnew : b.newdata = true) :
    readMb h s = answerFrame b.img (s.setRxmb h (clearNewData b)) := by
  rw [readMb, hb]
  exact if_pos hnew

theorem readMb_of_empty {h : Nat} {b : RxBuffer} (hb : s.rxmb[h]? = some b)
    (hempty : b.newdata = false) : readMb h s = .next (s.raise .bufferEmpty .frame) := by
  rw [readMb, hb]
  exact if_neg (Bool.eq_false_iff.1 hempty)

theorem readRxFifo_of_cons {h : Nat} {img : Image} {q : List Image}
    (hq : s.rxfifo[h]? = some (img :: q)) :
    readRxFifo h s = answerFrame img (s.setRxFifo h q) := by
  rw [readRxFifo, hq]

theorem readRxFifo_of_nil {h : Nat} (hq : s.rxfifo[h]? = some []) :
    readRxFifo h s = .next (s.raise .bufferEmpty .frame) := by
  rw [readRxFifo, hq]

theorem readCFifo_of_cons {h : Nat} {img : Image} {txq rxq : List Image}
    (hq : s.cfifo[h]? = some ⟨txq, img :: rxq⟩) :
    readCFifo h s = answerFrame img (s.setCFifo h ⟨txq, rxq⟩) := by
  rw [readCFifo, hq]

theorem readCFifo_of_nil {h : Nat} {txq : List Image} (hq : s.cfifo[h]? = some ⟨txq, []⟩) :
    readCFifo h s = .next (s.raise .bufferEmpty .frame) := by
  rw [readCFifo, hq]

end CanRead

/-! ### A failing operation (`44_can_frame.md` R214) -/

/-- Where `o` answers an error, nothing of `s` has changed but the response. -/
def FailsUnchanged (s : State) (o : Host.Outcome State Fault Refusal) : Prop :=
  ∀ t, o = .next t → answeredOk t = false → t = { s with rsp := t.rsp, draws := s.draws + 1 }

section FailsUnchanged

variable {s : State}

theorem failsUnchanged_raise (e : Status) (shape : ResultShape) :
    FailsUnchanged s (.next (s.raise e shape)) := by
  rintro t ⟨⟩ -
  rfl

theorem failsUnchanged_fault (f : Fault) : FailsUnchanged s (.fault f) := fun _ h => by cases h

theorem failsUnchanged_refused (r : Refusal) : FailsUnchanged s (.refused r) := fun _ h => by cases h

theorem failsUnchanged_ok (t : State) (r : Result) : FailsUnchanged s (.next (t.respond .ok r)) := by
  rintro u ⟨⟩ hfails
  cases hfails

/-- An error that `p` raises is no `OK`, and nothing of `s` has changed by then. -/
def RaisesUnchanged (s : State) (p : Progress) : Prop := ∀ e t, p = .raised e t → e ≠ .ok ∧ t = s

theorem RaisesUnchanged.answer {p : Progress} (h : RaisesUnchanged s p) : FailsUnchanged s p.answer := by
  cases p with
  | ok t => exact failsUnchanged_ok t _
  | raised e t =>
    obtain ⟨-, rfl⟩ := h e t rfl
    exact failsUnchanged_raise e _
  | fault f => exact failsUnchanged_fault f
  | refused r => exact failsUnchanged_refused r

/-- Every check comes before the placing. -/
theorem raisesUnchanged_placeFrame {f : Frame} {old : Image} {place : Image → Progress}
    (hplace : ∀ img, RaisesUnchanged s (place img)) :
    RaisesUnchanged s (placeFrame f old place s) := by
  rcases placeFrame_cases f old place s with
    ⟨-, h⟩ | ⟨-, -, h⟩ | ⟨-, -, -, h⟩ | ⟨img, -, -, -, h⟩ <;> rw [h]
  · rintro e t ⟨⟩
    exact ⟨nofun, rfl⟩
  · rintro e t ⟨⟩
  · rintro e t ⟨⟩
    exact ⟨nofun, rfl⟩
  · exact hplace img

theorem raisesUnchanged_appendCFifo (h : Nat) (img : Image) :
    RaisesUnchanged s (appendCFifo h img s) := by
  rcases appendCFifo_cases h img s with ⟨-, h'⟩ | ⟨q, -, ⟨-, h'⟩ | ⟨-, h'⟩⟩ <;> rw [h'] <;>
    rintro e t ⟨⟩

theorem raisesUnchanged_writeMb (h : Nat) (f : Frame) : RaisesUnchanged s (writeMb h f s) := by
  rw [writeMb]
  split
  · rintro e t ⟨⟩
  · split
    · rintro e t ⟨⟩
      exact ⟨nofun, rfl⟩
    · exact raisesUnchanged_placeFrame fun img => by rintro e t ⟨⟩

theorem raisesUnchanged_writeStep (ch : Byte) (index : Word32) (f : Frame) :
    RaisesUnchanged s (writeStep ch index f s) := by
  rw [writeStep]
  split
  · rintro e t ⟨⟩
  · split
    · rintro e t ⟨⟩
      exact ⟨nofun, rfl⟩
    · rintro e t ⟨⟩
      exact ⟨nofun, rfl⟩
    · exact raisesUnchanged_writeMb _ f
    · exact raisesUnchanged_placeFrame fun img => raisesUnchanged_appendCFifo _ img

theorem failsUnchanged_readMb (h : Nat) : FailsUnchanged s (readMb h s) := by
  rw [readMb]
  split
  · exact failsUnchanged_fault _
  · split
    · exact failsUnchanged_ok _ _
    · exact failsUnchanged_raise _ _

theorem failsUnchanged_readRxFifo (h : Nat) : FailsUnchanged s (readRxFifo h s) := by
  rw [readRxFifo]
  split
  · exact failsUnchanged_fault _
  · exact failsUnchanged_raise _ _
  · exact failsUnchanged_ok _ _

theorem failsUnchanged_readCFifo (h : Nat) : FailsUnchanged s (readCFifo h s) := by
  rw [readCFifo]
  split
  · exact failsUnchanged_fault _
  · exact failsUnchanged_raise _ _
  · exact failsUnchanged_ok _ _

theorem failsUnchanged_execCanRead (ch : Byte) (index : Word32) :
    FailsUnchanged s (execCanRead ch index s) := by
  rw [execCanRead]
  split
  · exact failsUnchanged_refused _
  · split
    · exact failsUnchanged_raise _ _
    · exact failsUnchanged_readMb _
    · exact failsUnchanged_readRxFifo _
    · exact failsUnchanged_readCFifo _

end FailsUnchanged

/-! ### The answer of CAN.WRITE and of CAN.READ -/

section Answers

variable {ch : Byte} {index : Word32} {f : Frame} {s t : State}

theorem exec_canWrite_of_ok (h : writeStep ch index f s = .ok t) :
    exec (.canWrite ch index f) s = .next (answered t .ok .none) := congrArg Progress.answer h

theorem exec_canWrite_of_raised {e : Status} (h : writeStep ch index f s = .raised e s) :
    exec (.canWrite ch index f) s = .next (answered s e .none) := congrArg Progress.answer h

theorem exec_canWrite_of_refused {r : Refusal} (h : writeStep ch index f s = .refused r) :
    exec (.canWrite ch index f) s = .refused r := congrArg Progress.answer h

/-- CAN.WRITE answers `OK` only where its step goes to its end. -/
theorem writeStep_of_answeredOk (h : exec (.canWrite ch index f) s = .next t)
    (hok : answeredOk t = true) : ∃ u, writeStep ch index f s = .ok u ∧ t = u.respond .ok .none := by
  obtain hgoes | ⟨e, u, hraised, rfl⟩ := Progress.answer_eq_next.1 h
  · exact hgoes
  · have ⟨hne, _⟩ := raisesUnchanged_writeStep ch index f e u hraised
    exact absurd (beq_iff_eq.1 hok) hne

/-- A read that finds an image answers with the frame it holds. -/
theorem exists_isFrameOf_of_answerFrame {i : Instr} {img : Image}
    (h : exec i s = answerFrame img t) :
    ∃ g, IsFrameOf t.cfg img g ∧ exec i s = .next (answered t .ok (.frame g)) :=
  ⟨decodeFrame t.cfg t.draws img, isFrameOf_decodeFrame _ _ img, h⟩

theorem exec_canRead_of_new {b : RxBuffer} (hch : ch.toNat < s.cfg.nChannels)
    (hindex : index.toNat < s.cfg.nMb)
    (hb : s.rxmb[index.toNat + ch.toNat * s.cfg.chStride.mb]? = some b) (hnew : b.newdata = true) :
    exec (.canRead ch index) s
      = answerFrame b.img
        (s.setRxmb (index.toNat + ch.toNat * s.cfg.chStride.mb) (clearNewData b)) :=
  (exec_canRead_mb hch hindex).trans (readMb_of_new hb hnew)

theorem failsWith_bufferEmpty_mb {b : RxBuffer} (hch : ch.toNat < s.cfg.nChannels)
    (hindex : index.toNat < s.cfg.nMb)
    (hb : s.rxmb[index.toNat + ch.toNat * s.cfg.chStride.mb]? = some b) (hempty : b.newdata = false) :
    FailsWith (.canRead ch index) s .bufferEmpty .frame :=
  failsWith_of_raise ((exec_canRead_mb hch hindex).trans (readMb_of_empty hb hempty))

end Answers

/-! ### The statements of `44_can_frame.md` on frame I/O -/

/-- Settles O32: the step of an idle buffer goes to its end. -/
theorem canWriteFillsMessageBuffer : Obligations.CanWriteFillsMessageBuffer := by
  intro ch index f s b hch hindex hb hidle hgood hid
  obtain ⟨code, img, hcode, hisImage, himg⟩ :=
    exists_encodeImage (c := s.cfg) (len_le_of_goodFrame hgood) b.img
  exact ⟨code, img, hcode, hisImage, exec_canWrite_of_ok ((writeStep_mb hch hindex).trans
    (writeMb_eq_ok.2 ⟨b, img, hb, hidle, hgood, hid, himg, rfl⟩))⟩

/-- Settles O33: below `FIFO_DEPTH` the queue is not full, so the image is appended. -/
theorem canWriteAppendsToCommonFifo : Obligations.CanWriteAppendsToCommonFifo := by
  intro ch index f s q hwf hch hbase hlt hq hdepth hgood hid
  obtain ⟨code, img, hcode, hisImage, himg⟩ :=
    exists_encodeImage (c := s.cfg) (len_le_of_goodFrame hgood) zeroImage
  have hroom : queueFull s.cfg q.txq = false := by
    rw [Bool.eq_false_iff, ne_eq, queueFull_eq_true]
    rintro ⟨d, hd, hle⟩
    exact (hdepth d hd).not_ge hle
  exact ⟨code, img, hcode, hisImage, exec_canWrite_of_ok ((writeStep_cFifo hwf hch ⟨hbase, hlt⟩).trans
    ((placeFrame_of_admitted hgood hid himg).trans (appendCFifo_of_room hq hroom)))⟩

/-- Settles O34: each check is reached only past the ones before it. -/
theorem canWriteChecksInOrder : Obligations.CanWriteChecksInOrder := by
  refine fun ch index f s hwf hch => ⟨fun hout => exec_canWrite_of_raised ?_,
    fun hindex b hb => ⟨fun hbusy => exec_canWrite_of_raised ?_,
      fun hidle hbad => exec_canWrite_of_raised ?_⟩,
    fun hindex hbad => exec_canWrite_of_raised ?_⟩
  · have hascending := rangesWf_ascending hwf
    refine writeStep_of_not_found hch (classifyWrite_eq_none ?_ ?_)
    · rw [inClass_mb]
      omega
    · rw [inClass_cFifo]
      omega
  · exact (writeStep_mb hch hindex).trans (writeMb_of_busy hb hbusy)
  · exact (writeStep_mb hch hindex).trans
      ((writeMb_of_idle hb hidle).trans (placeFrame_of_not_good hbad))
  · exact (writeStep_cFifo hwf hch hindex).trans (placeFrame_of_not_good hbad)

/-- Settles O35: the channel is tested before everything, the identifier after the shape, and the queue
last. -/
theorem canWriteRefusals : Obligations.CanWriteRefusals := by
  refine fun ch index f s hwf => ⟨fun hch => exec_canWrite_of_refused (writeStep_of_channel_ge hch),
    fun hch hgood => ⟨fun hindex b hb hidle hid => exec_canWrite_of_refused ?_, fun hindex =>
      ⟨fun hid => exec_canWrite_of_refused ?_,
        fun hid q d hq hd hfull => exec_canWrite_of_refused ?_⟩⟩⟩
  · exact (writeStep_mb hch hindex).trans
      ((writeMb_of_idle hb hidle).trans (placeFrame_of_id_ge hgood hid))
  · exact (writeStep_cFifo hwf hch hindex).trans (placeFrame_of_id_ge hgood hid)
  · obtain ⟨code, img, -, -, himg⟩ :=
      exists_encodeImage (c := s.cfg) (len_le_of_goodFrame hgood) zeroImage
    exact (writeStep_cFifo hwf hch hindex).trans ((placeFrame_of_admitted hgood hid himg).trans
      (appendCFifo_of_full hq (queueFull_eq_true.2 ⟨d, hd, hfull⟩)))

/-- Settles O36: both operations raise before they write, and a read answers `OK` once it writes. -/
theorem failedFrameIoChangesNothing : Obligations.FailedFrameIoChangesNothing := by
  rintro i s t (⟨ch, index, f, rfl⟩ | ⟨ch, index, rfl⟩) hexec hfails
  · exact (raisesUnchanged_writeStep ch index f).answer t hexec hfails
  · exact failsUnchanged_execCanRead ch index t hexec hfails

/-- Settles O37: the buffer's image is unpacked, and only its bit is written. -/
theorem canReadTakesMessageBuffer : Obligations.CanReadTakesMessageBuffer :=
  fun _ _ _ _ hch hindex hb hnew =>
    exists_isFrameOf_of_answerFrame (exec_canRead_of_new hch hindex hb hnew)

/-- Settles O38: for both FIFO classes the head of the queue is unpacked, and the tail stays. -/
theorem canReadTakesOldestFromFifo : Obligations.CanReadTakesOldestFromFifo := by
  refine fun ch index s img hwf hch => ⟨fun hindex q hq => ?_, fun hindex txq q hq => ?_⟩
  · exact exists_isFrameOf_of_answerFrame
      ((exec_canRead_rxFifo hwf hch hindex).trans (readRxFifo_of_cons hq))
  · exact exists_isFrameOf_of_answerFrame
      ((exec_canRead_cFifo hwf hch hindex).trans (readCFifo_of_cons hq))

/-- Settles O39: without a class no buffer is looked at, and an empty one is reported by its class. -/
theorem canReadChecksInOrder : Obligations.CanReadChecksInOrder := by
  refine fun ch index s hwf => ⟨exec_canRead_of_channel_ge, fun hch => ⟨fun hout =>
      failsWith_of_raise (exec_canRead_of_not_found hch (classify_eq_none ?_)),
    fun hindex b hb hempty => failsWith_bufferEmpty_mb hch hindex hb hempty, fun hindex hq => ?_,
    fun hindex txq hq => ?_⟩⟩
  · have hascending := rangesWf_ascending hwf
    intro cls
    cases cls with
    | mb => rw [inClass_mb]; omega
    | rxFifo => rw [inClass_rxFifo]; omega
    | cFifo => rw [inClass_cFifo]; omega
  · exact failsWith_of_raise
      ((exec_canRead_rxFifo hwf hch hindex).trans (readRxFifo_of_nil hq))
  · exact failsWith_of_raise
      ((exec_canRead_cFifo hwf hch hindex).trans (readCFifo_of_nil hq))

/-- Settles O40: the first read leaves the bit clear, which is all the second one looks at. -/
theorem secondReadFindsBufferEmpty : Obligations.SecondReadFindsBufferEmpty := by
  intro ch index s b hch hindex hb hnew
  have hlt := (List.getElem?_eq_some_iff.1 hb).1
  have hcleared := List.getElem?_set_self (a := clearNewData b) hlt
  exact ⟨_, exec_canRead_of_new hch hindex hb hnew, rfl, hcleared,
    failsWith_bufferEmpty_mb hch hindex hcleared rfl⟩

/-- Settles O41: the write that answered `OK` left the packed frame, which the read unpacks. -/
theorem deliveredFrameReadsBack : Obligations.DeliveredFrameReadsBack := by
  intro ch index f s t b r hlayout hindex hr hexec hok hb
  obtain ⟨u, hwrite, rfl⟩ := writeStep_of_answeredOk hexec hok
  have hch : ch.toNat < s.cfg.nChannels := by
    by_contra hge
    rw [writeStep_of_channel_ge (Nat.le_of_not_lt hge)] at hwrite
    cases hwrite
  rw [writeStep_mb hch hindex, writeMb_eq_ok] at hwrite
  obtain ⟨old, img, hold, -, hgood, hid, himg, rfl⟩ := hwrite
  obtain ⟨code, hexact⟩ := exists_code_of_goodFrame hgood
  have hplaced := List.getElem?_set_self (a := requestTransmit img) (List.getElem?_eq_some_iff.1 hold).1
  obtain rfl : requestTransmit img = b := Option.some.inj (hplaced.symm.trans hb)
  have hdelivered := List.getElem?_set_self (a := deliver img) (List.getElem?_eq_some_iff.1 hr).1
  exact ⟨_, _, _, peripheralDeliverMb_eq_next.2 ⟨r, hr, rfl⟩,
    exec_canRead_of_new hch hindex hdelivered rfl, rfl, sameFrame_decodeFrame hlayout hid hexact himg _⟩

end Sys2Proof.Machine

/-! The statement of `60_exceptions.md` on status kinds: what CAN.WRITE's steps can raise, which kinds each
operation answers, and that R240 and R241 list them. -/

namespace Sys2Proof.Machine

open Sys2Proof.Claims

/-! ### What the steps of CAN.WRITE can raise (`44_can_frame.md` R212, R213) -/

section Raises

variable {f : Frame} {s t : State} {e : Status}

/-- Where the placing raises no error, the only one is that of the checks before it. -/
theorem placeFrame_eq_raised {old : Image} {place : Image → Progress}
    (hplace : ∀ img, place img ≠ .raised e t) (h : placeFrame f old place s = .raised e t) :
    e = .invalidArgument := by
  rcases placeFrame_cases f old place s with
    ⟨-, h'⟩ | ⟨-, -, h'⟩ | ⟨-, -, -, h'⟩ | ⟨img, -, -, -, h'⟩ <;> rw [h'] at h
  · cases h; rfl
  · cases h
  · cases h; rfl
  · exact absurd h (hplace img)

theorem writeMb_eq_raised {h : Nat} (hraised : writeMb h f s = .raised e t) :
    e = .invalidArgument ∨ e = .canTransmitNotReady := by
  unfold writeMb at hraised
  split at hraised
  · cases hraised
  · split at hraised
    · cases hraised; exact .inr rfl
    · refine .inl (placeFrame_eq_raised (fun img => ?_) hraised)
      exact nofun

/-- A full queue is no error of the operation but a refusal (`44_can_frame.md` R216). -/
theorem appendCFifo_ne_raised (h : Nat) (img : Image) : appendCFifo h img s ≠ .raised e t := by
  rcases appendCFifo_cases h img s with ⟨-, h'⟩ | ⟨q, -, ⟨-, h'⟩ | ⟨-, h'⟩⟩ <;> simp [h']

theorem writeCFifo_eq_raised {h : Nat} (hraised : writeCFifo h f s = .raised e t) :
    e = .invalidArgument :=
  placeFrame_eq_raised (appendCFifo_ne_raised h) hraised

/-- Only a busy message buffer gives CAN.WRITE a second kind of error. -/
theorem writeStep_eq_raised {ch : Byte} {index : Word32} (h : writeStep ch index f s = .raised e t) :
    e = .invalidArgument ∨ e = .canTransmitNotReady := by
  unfold writeStep at h
  split at h
  · cases h
  · split at h
    · cases h; exact .inl rfl
    · cases h; exact .inl rfl
    · exact writeMb_eq_raised h
    · exact .inl (writeCFifo_eq_raised h)

end Raises

/-! ### The kinds an outcome answers -/

/-- Every next state of `o` holds a response whose status is one of `kinds`. -/
def AnswersKind (kinds : List Status) (o : Host.Outcome State Fault Refusal) : Prop :=
  ∀ t, o = .next t → ∃ r, t.rsp = some r ∧ r.status ∈ kinds

section Kinds

variable {kinds : List Status} {s : State}

@[simp] theorem answersKind_respond {e : Status} {r : Result} :
    AnswersKind kinds (.next (s.respond e r)) ↔ e ∈ kinds := by
  simp [AnswersKind]

@[simp] theorem answersKind_raise {e : Status} {shape : ResultShape} :
    AnswersKind kinds (.next (s.raise e shape)) ↔ e ∈ kinds := by
  simp [AnswersKind]

@[simp] theorem answersKind_fault (f : Fault) : AnswersKind kinds (.fault f) := by
  simp [AnswersKind]

@[simp] theorem answersKind_refused (r : Refusal) : AnswersKind kinds (.refused r) := by
  simp [AnswersKind]

theorem AnswersKind.mono {kinds' : List Status} {o : Host.Outcome State Fault Refusal}
    (h : AnswersKind kinds o) (hsub : kinds ⊆ kinds') : AnswersKind kinds' o := by
  intro t ht
  obtain ⟨r, hrsp, hkind⟩ := h t ht
  exact ⟨r, hrsp, hsub hkind⟩

/-- An operation without result fields answers `OK` at its end, and otherwise what its steps raise. -/
theorem Progress.answer_answersKind {p : Progress} (h : ∀ e t, p = .raised e t → e ∈ kinds) :
    AnswersKind (.ok :: kinds) p.answer := by
  cases p with
  | ok u => simp
  | raised e u => simp [h e u rfl]
  | fault f => simp
  | refused r => simp

/-! ### The operations (`60_exceptions.md` R240) -/

theorem execPdBlock_answersKind (level : Byte) (addr attr : Word64) :
    AnswersKind [.ok, .invalidArgument] (execPdBlock level addr attr s) := by
  unfold execPdBlock
  split <;> simp

theorem execPdWrite_answersKind (a v : Word64) : AnswersKind [.ok] (execPdWrite a v s) :=
  Progress.answer_answersKind fun e t h => absurd h (memWrite_ne_raised a v s e t)

theorem execPtLink_answersKind (level : Byte) (basePtr baseVa va child : Word64) :
    AnswersKind [.ok, .invalidArgument] (execPtLink level basePtr baseVa va child s) :=
  Progress.answer_answersKind fun _ _ h => List.mem_singleton.2 (linkStep_eq_raised h).1

/-- PT.MAP and PT.FAULT share their checks. -/
theorem rangeStep_answersKind (r : TableRecord) (va pa size : Word64)
    (descs : Level → Nat → List Word64) :
    AnswersKind [.ok, .invalidArgument] (rangeStep r va pa size descs s).answer :=
  Progress.answer_answersKind fun _ _ h => List.mem_singleton.2 (rangeStep_eq_raised h).1

theorem execPtBuild_answersKind (count : BitVec 16) (regions : List Region) :
    AnswersKind [.ok, .invalidArgument] (execPtBuild count regions s) :=
  Progress.answer_answersKind fun _ _ h => List.mem_singleton.2 (buildStep_eq_raised h)

theorem execDlcB2c_answersKind (n : Byte) :
    AnswersKind [.ok, .invalidArgument] (execDlcB2c n s) := by
  unfold execDlcB2c
  split <;> simp

theorem execDlcC2b_answersKind (n : Byte) :
    AnswersKind [.ok, .invalidArgument] (execDlcC2b n s) := by
  unfold execDlcC2b
  split <;> simp

theorem execFrmCheck_answersKind (f : Frame) :
    AnswersKind [.ok, .invalidArgument] (execFrmCheck f s) := by
  unfold execFrmCheck
  split <;> simp

theorem answerIndex_answersKind (channel : Byte) (found : Option (BufferClass × Nat)) :
    AnswersKind [.ok, .invalidArgument] (answerIndex channel found s) := by
  unfold answerIndex
  split
  · simp
  · split <;> simp

theorem execFrmEnc_answersKind (f : Frame) :
    AnswersKind [.ok, .invalidArgument] (execFrmEnc f s) := by
  unfold execFrmEnc
  split
  · split <;> simp
  · simp

theorem execCanWrite_answersKind (ch : Byte) (index : Word32) (f : Frame) :
    AnswersKind [.ok, .invalidArgument, .canTransmitNotReady] (execCanWrite ch index f s) :=
  Progress.answer_answersKind fun _ _ h => List.mem_pair.2 (writeStep_eq_raised h)

theorem answerFrame_answersKind {img : Image} (hok : .ok ∈ kinds) :
    AnswersKind kinds (answerFrame img s) := answersKind_respond.2 hok

theorem readMb_answersKind (h : Nat) : AnswersKind [.ok, .bufferEmpty] (readMb h s) := by
  unfold readMb
  split
  · simp
  · split
    · exact answerFrame_answersKind (by simp)
    · simp

theorem readRxFifo_answersKind (h : Nat) : AnswersKind [.ok, .bufferEmpty] (readRxFifo h s) := by
  unfold readRxFifo
  split
  · simp
  · simp
  · exact answerFrame_answersKind (by simp)

theorem readCFifo_answersKind (h : Nat) : AnswersKind [.ok, .bufferEmpty] (readCFifo h s) := by
  unfold readCFifo
  split
  · simp
  · simp
  · exact answerFrame_answersKind (by simp)

/-- The index adds its own error to those of the buffers (`44_can_frame.md` R220, R221). -/
theorem execCanRead_answersKind (ch : Byte) (index : Word32) :
    AnswersKind [.ok, .invalidArgument, .bufferEmpty] (execCanRead ch index s) := by
  have hsub : [Status.ok, .bufferEmpty] ⊆ [.ok, .invalidArgument, .bufferEmpty] := by simp
  unfold execCanRead
  split
  · simp
  · split
    · simp
    · exact (readMb_answersKind _).mono hsub
    · exact (readRxFifo_answersKind _).mono hsub
    · exact (readCFifo_answersKind _).mono hsub

end Kinds

/-! ### The statement of `60_exceptions.md` on status kinds -/

/-- Settles O46, operation by operation: an error is one that its own checks raise. -/
theorem operationReturnsListedKinds : Obligations.OperationReturnsListedKinds := by
  intro i s
  change AnswersKind (returnableKinds i) (exec i s)
  have hok : Status.ok ∈ [Status.ok] := List.mem_singleton_self _
  cases i with
  | pdFault => exact answersKind_respond.2 hok
  | pdLink addr => exact answersKind_respond.2 hok
  | pdBlock level addr attr => exact execPdBlock_answersKind level addr attr
  | pdWrite a v => exact execPdWrite_answersKind a v
  | ptAlloc => exact answersKind_raise.2 (List.mem_singleton_self _)
  | ptLink level basePtr baseVa va child =>
    exact execPtLink_answersKind level basePtr baseVa va child
  | ptMap level basePtr baseVa va pa size attr => exact rangeStep_answersKind _ va pa size _
  | ptFault level basePtr baseVa va pa size => exact rangeStep_answersKind _ va pa size _
  | ptBuild count regions => exact execPtBuild_answersKind count regions
  | ptActivate => exact answersKind_respond.2 hok
  | atV2p addr => exact answersKind_respond.2 hok
  | atP2v addr => exact answersKind_respond.2 hok
  | dlcB2c n => exact execDlcB2c_answersKind n
  | dlcC2b n => exact execDlcC2b_answersKind n
  | frmCheck f => exact execFrmCheck_answersKind f
  | idxClassW channel index => exact answerIndex_answersKind channel _
  | idxClassR channel index => exact answerIndex_answersKind channel _
  | frmEnc f => exact execFrmEnc_answersKind f
  | frmDec img => exact answersKind_respond.2 hok
  | canWrite channel index f => exact execCanWrite_answersKind channel index f
  | canRead channel index => exact execCanRead_answersKind channel index

end Sys2Proof.Machine

/-! The statements of `70_reset_and_hazards.md`: no agent's move changes `CFG` or the region list (R271, R275),
and the state after reset takes the launch premise `CanIdle` (R273). -/

namespace Sys2Proof.Machine

/-! ### What keeps the configuration (`70_reset_and_hazards.md` R271, R275) -/

/-- `t` has the configuration and the region list of `s`. -/
def SameConfig (s t : State) : Prop := t.cfg = s.cfg ∧ t.rl = s.rl

section Config

variable {s t u : State}

theorem SameConfig.refl (s : State) : SameConfig s s := ⟨rfl, rfl⟩

theorem SameConfig.trans (hst : SameConfig s t) (htu : SameConfig t u) : SameConfig s u :=
  ⟨htu.1.trans hst.1, htu.2.trans hst.2⟩

theorem TableWrites.sameConfig (h : TableWrites s t) : SameConfig s t := by
  obtain ⟨_, _, _, rfl⟩ := h.frame
  exact .refl s

theorem Effect.sameConfig {i : Instr} (hu : Effect i s u) : SameConfig s u := by
  cases hu with
  | tables _ hw => exact hw.sameConfig
  | _ => exact .refl s

theorem exec_sameConfig {i : Instr} (h : exec i s = .next t) : SameConfig s t := by
  obtain ⟨u, e, r, hu, rfl⟩ := exec_answers i s t h
  exact hu.sameConfig

/-- MMU.OPEN ends where PT.BUILD does, or where PT.ACTIVATE does after it (`30_encoding.md` R89). -/
theorem exists_execPtBuild_of_execMmuOpen {regions : List Region}
    (h : execMmuOpen regions s = .next t) :
    ∃ count u, execPtBuild count regions s = .next u ∧ (t = u ∨ execPtActivate u = .next t) := by
  unfold execMmuOpen at h
  split at h
  · split at h
    · next u hbuild =>
      refine ⟨_, u, hbuild, ?_⟩
      split at h
      · exact .inr h
      · cases h; exact .inl rfl
    · cases h
    · cases h
  · cases h

theorem execMmuOpen_sameConfig {regions : List Region} (h : execMmuOpen regions s = .next t) :
    SameConfig s t := by
  obtain ⟨count, u, hbuild, rfl | hactivate⟩ := exists_execPtBuild_of_execMmuOpen h
  · exact exec_sameConfig (i := .ptBuild count regions) hbuild
  · have hu : SameConfig s u := exec_sameConfig (i := .ptBuild count regions) hbuild
    exact hu.trans (exec_sameConfig (i := .ptActivate) hactivate)

theorem runRequest_sameConfig {bits : Bits} (h : runRequest bits s = .next t) : SameConfig s t := by
  unfold runRequest at h
  split at h
  · exact exec_sameConfig (s := s.beginOp) h
  · cases h; exact .refl s
  · cases h
  · cases h

/-- Each agent's move writes only stores of its own, and no agent has `CFG` or the region list among
its stores (`10_state.md` R36 to R39). -/
theorem takeInput_sameConfig {input : Input} (h : takeInput input s = .next t) : SameConfig s t := by
  cases input with
  | request bits => exact runRequest_sameConfig h
  | mmuOpen => exact execMmuOpen_sameConfig (s := s.beginOp) h
  | requesterBarrier => cases h; exact .refl s
  | txDone n =>
    obtain ⟨b, -, -, rfl⟩ := peripheralTxDone_eq_next.1 h
    exact .refl s
  | deliverMb n img =>
    obtain ⟨b, -, rfl⟩ := peripheralDeliverMb_eq_next.1 h
    exact .refl s
  | deliverRxFifo k img =>
    obtain ⟨q, -, rfl⟩ := peripheralDeliverRxFifo_eq_next.1 h
    exact .refl s
  | deliverCFifo k img =>
    obtain ⟨f, -, rfl⟩ := peripheralDeliverCFifo_eq_next.1 h
    exact .refl s
  | cFifoSent k =>
    obtain ⟨img, txq, rxq, -, rfl⟩ := peripheralCFifoSent_eq_next.1 h
    exact .refl s
  | walkerRead a within choice =>
    obtain ⟨v, rfl⟩ := walkerRead_frame h
    exact .refl s

theorem step_sameConfig (h : step s = .next t) : SameConfig s t := by
  cases hinputs : s.inputs with
  | nil =>
    rw [step_of_inputs_nil hinputs] at h
    cases h
    exact .refl s
  | cons input rest =>
    rw [step_of_inputs_cons hinputs] at h
    exact takeInput_sameConfig (s := { s with inputs := rest }) h

end Config

/-! ### The state after reset (`70_reset_and_hazards.md` R273) -/

/-- Reset fills every bank with idle buffers or empty queues, whatever the configuration. -/
theorem canIdle_resetOf (c : Cfg) (rl : List Region) (tm : Memory) :
    CanIdle (State.resetOf c rl tm) := by
  refine ⟨fun b hb => ?_, fun b hb => ?_, fun q hq => ?_, fun f hf => ?_⟩
  · rw [List.eq_of_mem_replicate hb]
  · rw [List.eq_of_mem_replicate hb]
  · exact List.eq_of_mem_replicate hq
  · rw [List.eq_of_mem_replicate hf]
    exact ⟨rfl, rfl⟩

/-! ### The statements of `70_reset_and_hazards.md` -/

/-- Settles O50, from what each agent's move leaves alone. -/
theorem stepKeepsConfiguration : Obligations.StepKeepsConfiguration := fun _ _ => step_sameConfig

/-- Settles O53, at the launch configuration. -/
theorem resetIsCanIdle : Obligations.ResetIsCanIdle := canIdle_resetOf _ _ _

end Sys2Proof.Machine

/-! The read-back of a block descriptor under R113's duties (R116), the store that the launch memory map does
not back (U4), and the invariant at reset (R270 to R275). -/

namespace Sys2Proof.Machine

open Sys2Proof.Claims

/-! ### The masks of a block descriptor (`00_scope.md` R6, `40_pd_encode.md` R113) -/

/-- The bits that `OA_MASK[l]` leaves out: those below the stride, and those from bit 48 up. -/
theorem not_launch_oaMask (l : Level) :
    ~~~Cfg.launch.oaMask.forLevel l = BitVec.ofNat 64 (strideOf l - 1) ||| 0xFFFF000000000000 := by
  cases l <;> decide

/-- R113's duty on the attribute covers every bit of `OA_MASK[l]`. -/
theorem attrDuty_and_launch_oaMask (l : Level) :
    0x0000FFFFFFFFF003 &&& Cfg.launch.oaMask.forLevel l = Cfg.launch.oaMask.forLevel l := by
  cases l <;> decide

/-- No `OA_MASK[l]` holds a bit of the tag or of `ATTR_MASK`. -/
theorem launch_oaMask_disjoint (l : Level) :
    0b11 &&& Cfg.launch.oaMask.forLevel l = 0
      ∧ Cfg.launch.oaMask.forLevel l &&& (0b11 ||| Cfg.launch.attrMask) = 0 := by
  cases l <;> decide

theorem strideOf_eq_two_pow (l : Level) : ∃ n ≤ 64, strideOf l = 2 ^ n := by
  cases l with
  | l1 => exact ⟨30, by omega, rfl⟩
  | l2 => exact ⟨21, by omega, rfl⟩
  | l3 => exact ⟨12, by omega, rfl⟩

/-- A word below 2^48 that is a multiple of the level's stride lies inside `OA_MASK[l]`. -/
theorem and_launch_oaMask_of_aligned {l : Level} {addr : Word64}
    (haligned : addr.toNat % strideOf l = 0) (hlt : addr.toNat < 2 ^ 48) :
    addr &&& Cfg.launch.oaMask.forLevel l = addr := by
  obtain ⟨n, hn, hstride⟩ := strideOf_eq_two_pow l
  have hlow : addr &&& BitVec.ofNat 64 (strideOf l - 1) = 0 := by
    rw [hstride] at haligned ⊢
    exact BitVec.eq_of_toNat_eq ((toNat_and_low_bits addr hn).trans haligned)
  have hkept : addr &&& BitVec.ofNat 64 (2 ^ 48 - 1) = addr :=
    BitVec.eq_of_toNat_eq ((toNat_and_low_bits addr (by omega)).trans (Nat.mod_eq_of_lt hlt))
  have hhigh : addr &&& 0xFFFF000000000000 = 0 := and_eq_zero_of_kept hkept (by decide)
  have hclear : addr &&& ~~~Cfg.launch.oaMask.forLevel l = 0 := by
    rw [not_launch_oaMask, BitVec.and_or_distrib_left, hlow, hhigh]
    exact BitVec.or_zero
  exact and_eq_self_of_clear hclear (by simp)

/-- A tag lies in bits 1:0 alone. -/
theorem setWidth_tag_and (tag : BitVec 2) : tag.setWidth 64 &&& 0b11 = tag.setWidth 64 := by
  revert tag; decide

/-! ### The fields of a block descriptor (`40_pd_encode.md` R116) -/

section Fields

variable {l : Level} {addr attr : Word64}

theorem blockDesc_and (c : Cfg) (m : Word64) :
    blockDesc c l addr attr &&& m
      = addr &&& m ||| attr &&& m ||| (c.tagBlock.forLevel l).setWidth 64 &&& m := by
  rw [blockDesc, BitVec.and_or_distrib_right, BitVec.and_or_distrib_right]

theorem blockDesc_and_oaMask (c : Cfg) (haddr : addr &&& Cfg.launch.oaMask.forLevel l = addr)
    (hattr : attr &&& 0x0000FFFFFFFFF003 = 0) :
    blockDesc c l addr attr &&& Cfg.launch.oaMask.forLevel l = addr := by
  obtain ⟨htag, -⟩ := launch_oaMask_disjoint l
  rw [blockDesc_and, haddr, and_eq_zero_of_clear hattr (attrDuty_and_launch_oaMask l),
    and_eq_zero_of_kept (setWidth_tag_and _) htag]
  exact BitVec.or_zero.trans BitVec.or_zero

theorem blockDesc_and_attrMask (c : Cfg) (haddr : addr &&& (0b11 ||| Cfg.launch.attrMask) = 0)
    (hattr : attr &&& 0x0000FFFFFFFFF003 = 0) :
    blockDesc c l addr attr &&& Cfg.launch.attrMask = attr := by
  rw [blockDesc_and, and_eq_zero_of_clear haddr (by decide), and_eq_self_of_clear hattr (by decide),
    and_eq_zero_of_kept (setWidth_tag_and _) (by decide)]
  exact BitVec.or_zero.trans BitVec.zero_or

theorem extractLsb'_blockDesc_of_clear (c : Cfg)
    (haddr : addr &&& (0b11 ||| Cfg.launch.attrMask) = 0) (hattr : attr &&& 0x0000FFFFFFFFF003 = 0) :
    (blockDesc c l addr attr).extractLsb' 0 2 = c.tagBlock.forLevel l := by
  refine extractLsb'_or_tag ?_ _
  rw [BitVec.and_or_distrib_right, and_eq_zero_of_clear haddr (by decide),
    and_eq_zero_of_clear hattr (by decide)]
  exact BitVec.or_zero

end Fields

/-! ### Read-back and the unbacked store (`40_pd_encode.md` R114, R116) -/

/-- Settles O6: each mask keeps one operand of the OR and clears the other two. -/
theorem blockDescriptorReadsBack : Obligations.BlockDescriptorReadsBack := by
  intro level l addr attr s hlevel hle hoa hattrMask haligned hlt hattr
  have hkept := and_launch_oaMask_of_aligned haligned hlt
  obtain ⟨-, hdisjoint⟩ := launch_oaMask_disjoint l
  have hclear := and_eq_zero_of_kept hkept hdisjoint
  rw [hoa, hattrMask]
  exact ⟨_, exec_pdBlock_of_level hlevel hle addr attr, blockDesc_and_oaMask s.cfg hkept hattr,
    blockDesc_and_attrMask s.cfg hclear hattr, extractLsb'_blockDesc_of_clear s.cfg hclear hattr⟩

/-- Settles O5: of the three things `memWrite` can do, the other two need a misaligned or a backed
address. -/
theorem storeOutsideMemoryMapFaults : Obligations.StoreOutsideMemoryMapFaults := by
  intro a v s haligned hunbacked
  change (memWrite a v s).answer = _
  rcases memWrite_cases a v s with ⟨-, hbacked, -⟩ | ⟨hmisaligned, -⟩ | ⟨-, -, hfault⟩
  · rw [hunbacked] at hbacked; cases hbacked
  · exact absurd haligned hmisaligned
  · rw [hfault, Progress.answer_fault]

/-! ### The state after reset (`70_reset_and_hazards.md` R270 to R275) -/

theorem banksOk_resetOf (c : Cfg) (rl : List Region) (tm : Memory) :
    banksOk (State.resetOf c rl tm) := by
  simp [banksOk]

/-- Reset leaves every queue empty and every store visible, so what is left of the invariant is the
canonical form of the memory it launches with. -/
theorem inv_resetOf (c : Cfg) (rl : List Region) {tm : Memory} (htm : tm.wf = true) :
    Inv (State.resetOf c rl tm) := by
  refine ⟨htm, banksOk_resetOf c rl tm, fun f hf d _ => ?_, List.nil_suffix, fun w hw => ?_⟩
  · rw [List.eq_of_mem_replicate hf]
    exact Nat.zero_le d
  · cases hw

/-- Settles O52; the empty memory of `State.reset` is canonical. -/
theorem resetHasInvariant : Obligations.ResetHasInvariant :=
  ⟨inv_resetOf _ _ rfl, fun c rl _ => inv_resetOf c rl⟩

end Sys2Proof.Machine
